-- ==== Sys2Proof/Word.lean ====
section
/-! DEFINITION. The widths of the engine's values (spec/00_scope.md R10 to R13, spec/10_state.md R29, R32 to R34). -/

namespace Sys2Proof

/-- A byte, 8 bits (R10). -/
abbrev Byte := BitVec 8

/-- A 32-bit word: a key word, a word of `W`, an entry of `RCON` (R10, R32). -/
abbrev Word := BitVec 32

/-- A 64-bit half of a field element (R11). -/
abbrev Half := BitVec 64

/-- A GF(2^128) element as the 128-bit integer `high * 2^64 + low`; GCM bit `i` is integer bit `127 - i` (R11). -/
abbrev GF128 := BitVec 128

/-- A 16-byte block; index `k` is byte `b[k]` (R12). -/
abbrev Block := Vector Byte 16

/-- The block of sixteen zero bytes, `zeros(16)` (R12). -/
def zeroBlock : Block := Vector.replicate 16 0

/-- The 4×4 byte matrix `STATE`; `m[r][c]` is `STATE[r][c]`, row `r`, column `c` (R29, R59). -/
abbrev Matrix44 := Vector (Vector Byte 4) 4

/-- The expanded-key word file `W[0..59]` (R32). -/
abbrev WordFile := Vector Word 60

/-- The multiplication table `M[0..15][0..255]` (R34). -/
abbrev MulTable := Vector (Vector GF128 256) 16

end Sys2Proof
end

