-- ==== Sys2Proof/Config.lean ====
section
/-! DEFINITION. What an implementation fixes (spec/00_scope.md R8, R18) and the values the spec leaves free. -/

namespace Sys2Proof

/-- How GHASH's multiply-by-`H` is computed (R8, R25): Algorithm 1, the 16×256 table, or the carry-less form. -/
inductive MulStrategy where
  | serial
  | table
  | clmul
deriving DecidableEq, Repr

/-- `CMD_ENCODING` (R8, 92 D4): the command word of each command, one field per row of R82. -/
structure CmdEncoding where
  newAead : Byte
  sealMessage : Byte
  openMessage : Byte
  nonceSize : Byte
  overhead : Byte
  expandKey : Byte
  encryptBlock : Byte
  decryptBlock : Byte
  gfmul : Byte
  ghash : Byte
  cipherBlocks : Byte
deriving DecidableEq, Repr

/-- `STATUS_ENCODING` (R8, 92 D5): the 8-bit code of each status, one field per row of spec/60_exceptions.md R231. -/
structure StatusEncoding where
  ok : Byte
  invalidKeyLength : Byte
  invalidBlockLength : Byte
  unsupportedNonceLength : Byte
  authenticationFailure : Byte
  inputTooLarge : Byte
  noContext : Byte
  illegalCommand : Byte
deriving DecidableEq, Repr

/-- The parameters of R8 that change what the engine does, holds or shows at its boundary. They are `OPEN` in the spec,
so they are plain data carried beside the state: every statement is about every value of them, and no command writes
them (R18, R25). The defaults are `Params.default`. DESIGN CHOICE, safe, log 6; the two encodings, log 20. -/
structure Params where
  /-- `MUL_STRATEGY` (R25). -/
  mulStrategy : MulStrategy
  /-- `HAS_INV_CIPHER` (R8): whether `DECRYPTBLOCK` is present. -/
  hasInvCipher : Bool
  /-- `CMD_ENCODING` (R8): the word that each command has. -/
  cmdEncoding : CmdEncoding
  /-- `STATUS_ENCODING` (R8): the code that each status has. -/
  statusEncoding : StatusEncoding
deriving DecidableEq, Repr

/-- Free value: the entry `RCON[0]`, which exists, is never read and has no stated value (R106, 93 U3). Log 9. -/
opaque Config.rconZero : Word

/-- Free value: the 64-bit field `OUT_LEN` of a response whose data is 2^64 bytes or longer, a count that the field
cannot hold and for which R85 states no value. Log 8. -/
opaque Config.outLenBeyond : Nat → BitVec 64

end Sys2Proof
end

