-- ==== Sys2Proof/Syntax.lean ====
section
/-! DEFINITION. The commands: one constructor per row of spec/opcode_table.json (spec/30_encoding.md R80, R82).
A command word carries no operand; operands travel in the operand spaces (R80, R84). -/

namespace Sys2Proof

/-- The engine's eleven commands (R82), in the table's order. -/
inductive Instr where
  /-- `NEWAEAD`, 0x00 (R201). -/
  | newAead
  /-- `SEAL`, 0x01 (R205). -/
  | sealMessage
  /-- `OPEN`, 0x02 (R206). -/
  | openMessage
  /-- `NONCESIZE`, 0x03 (R207). -/
  | nonceSize
  /-- `OVERHEAD`, 0x04 (R208). -/
  | overhead
  /-- `EXPANDKEY`, 0x10 (R111). -/
  | expandKey
  /-- `ENCRYPTBLOCK`, 0x11 (R134). -/
  | encryptBlock
  /-- `DECRYPTBLOCK`, 0x12 (R135). -/
  | decryptBlock
  /-- `GFMUL`, 0x20 (R166). -/
  | gfmul
  /-- `GHASH`, 0x30 (R182). -/
  | ghash
  /-- `CIPHERBLOCKS`, 0x40 (R193). -/
  | cipherBlocks
deriving DecidableEq, Repr

/-- The component a command belongs to: the field `CMD[7:4]` (R80). -/
inductive Component where
  | orchestrator
  | blockCipher
  | galoisField
  | ghashAccumulator
  | gctr
deriving DecidableEq, Repr

/-- The component of each command, from the unit column of spec/opcode_table.json (R80, R82). -/
def Instr.component : Instr → Component
  | .newAead => .orchestrator
  | .sealMessage => .orchestrator
  | .openMessage => .orchestrator
  | .nonceSize => .orchestrator
  | .overhead => .orchestrator
  | .expandKey => .blockCipher
  | .encryptBlock => .blockCipher
  | .decryptBlock => .blockCipher
  | .gfmul => .galoisField
  | .ghash => .ghashAccumulator
  | .cipherBlocks => .gctr

/-- The values a command reads beside the context: the operand spaces of one command issue (20_memory.md R50,
30_encoding.md R81). The first four are byte sequences with their lengths; `X_IN` and `Y_IN` are fixed 16-byte ports. -/
structure Operands where
  keyIn : List Byte
  nonceIn : List Byte
  dataIn : List Byte
  aadIn : List Byte
  xIn : Block
  yIn : Block
deriving DecidableEq, Repr

/-- One command issue `(CMD, KEY_IN, NONCE_IN, DATA_IN, AAD_IN, X_IN, Y_IN)` (R81). -/
structure Issue where
  cmd : Byte
  operands : Operands
deriving DecidableEq, Repr

end Sys2Proof
end

