-- ==== Sys2Proof/Decode.lean ====
section
/-! DEFINITION. The one command format `C8` (spec/30_encoding.md R80, R82, R87, R88): the parameter `CMD_ENCODING` and
its default, the table of R82; the decoder, total on every byte and rejecting by name; the encoder; and the defaults of
all parameters (spec/00_scope.md R8). -/

namespace Sys2Proof

/-! ### The fields of a command word -/

/-- The field `unit`, `CMD[7:4]` (R80). -/
def cmdUnit (cmd : Byte) : BitVec 4 := cmd.extractLsb' 4 4

/-- The field `fn`, `CMD[3:0]` (R80). -/
def cmdFn (cmd : Byte) : BitVec 4 := cmd.extractLsb' 0 4

/-- The component numbers of R80. -/
def componentNumber : Component → BitVec 4
  | .orchestrator => 0
  | .blockCipher => 1
  | .galoisField => 2
  | .ghashAccumulator => 3
  | .gctr => 4

/-- The word of operation `fn` of a component (R80). -/
def commandWord (c : Component) (fn : BitVec 4) : Byte := componentNumber c ++ fn

/-! ### The parameters and their defaults -/

/-- The default of `CMD_ENCODING`: the table of R82 (R8, 92 D4). -/
def CmdEncoding.default : CmdEncoding where
  newAead := commandWord .orchestrator 0
  sealMessage := commandWord .orchestrator 1
  openMessage := commandWord .orchestrator 2
  nonceSize := commandWord .orchestrator 3
  overhead := commandWord .orchestrator 4
  expandKey := commandWord .blockCipher 0
  encryptBlock := commandWord .blockCipher 1
  decryptBlock := commandWord .blockCipher 2
  gfmul := commandWord .galoisField 0
  ghash := commandWord .ghashAccumulator 0
  cipherBlocks := commandWord .gctr 0

/-- The default of `STATUS_ENCODING`: the table of spec/60_exceptions.md R231 (R8, 92 D5). -/
def StatusEncoding.default : StatusEncoding where
  ok := 0x00
  invalidKeyLength := 0x01
  invalidBlockLength := 0x02
  unsupportedNonceLength := 0x03
  authenticationFailure := 0x04
  inputTooLarge := 0x05
  noContext := 0x80
  illegalCommand := 0x81

/-- The default values that R8 gives: `TABLE`, no inverse cipher, and the tables of R82 and R231. -/
def Params.default : Params where
  mulStrategy := .table
  hasInvCipher := false
  cmdEncoding := CmdEncoding.default
  statusEncoding := StatusEncoding.default

/-! ### Decoding -/

/-- Why a command word selects no operation (R80, R87). -/
inductive DecodeError where
  /-- No command's word has this `CMD[7:4]`; in the table of R82 these are 5 to 15, no component's number (R80). -/
  | reservedUnit (cmd : Byte)
  /-- A command's word has this `CMD[7:4]`, and none is this word (R87). -/
  | reservedFunction (cmd : Byte)
deriving DecidableEq, Repr

/-- Every command, in the order of R82. -/
def allCommands : List Instr :=
  [.newAead, .sealMessage, .openMessage, .nonceSize, .overhead, .expandKey, .encryptBlock, .decryptBlock, .gfmul,
    .ghash, .cipherBlocks]

/-- Command to `CMD`, under an assignment of command words; under `CmdEncoding.default`, the value column of R82. -/
def encode (e : CmdEncoding) : Instr → Byte
  | .newAead => e.newAead
  | .sealMessage => e.sealMessage
  | .openMessage => e.openMessage
  | .nonceSize => e.nonceSize
  | .overhead => e.overhead
  | .expandKey => e.expandKey
  | .encryptBlock => e.encryptBlock
  | .decryptBlock => e.decryptBlock
  | .gfmul => e.gfmul
  | .ghash => e.ghash
  | .cipherBlocks => e.cipherBlocks

/-- `CMD` to command, under an assignment of command words; a value that no command has is reserved (R82, R87). A
decoder needs only `CMD` and the assignment (R88): `DECRYPTBLOCK`'s word decodes on every engine, and its meaning
reports `IllegalCommand` where the option is absent (R135, log 18). That the assignment is a parameter is R8; where it
gives two commands one word, the first in the order of R82 is decoded (DESIGN CHOICE, safe, log 20). -/
def decode (e : CmdEncoding) (cmd : Byte) : Except DecodeError Instr :=
  match allCommands.find? (fun i => encode e i == cmd) with
  | some i => .ok i
  | none =>
    if allCommands.any (fun i => cmdUnit (encode e i) == cmdUnit cmd) then .error (.reservedFunction cmd)
    else .error (.reservedUnit cmd)

/-- What the decoder reads, under the table of R82, from a command word given as a number, bit 0 least significant; the
bits from `nbits` up are 0. A command is one 8-bit word (R88). -/
def decodeTableWord (nbits w : Nat) : Option Instr :=
  match decode CmdEncoding.default (BitVec.ofNat 8 (w % 2 ^ nbits)) with
  | .ok i => some i
  | .error _ => none

end Sys2Proof
end

