-- ==== Sys2Proof/Machine/State.lean ====
section
/-! DEFINITION. The engine's state as plain data (spec/10_state.md), its responses (spec/30_encoding.md R85,
spec/60_exceptions.md R231), the host's moves, the state after reset (R41, R260), and the reasons a step can stop. -/

namespace Sys2Proof.Machine

/-- The typed failures of a command, one per row of R231 but `OK`. -/
inductive Failure where
  /-- The key is not 16, 24 or 32 bytes (R232). -/
  | invalidKeyLength
  /-- The block is not 16 bytes (R233). -/
  | invalidBlockLength
  /-- The nonce is not 12 bytes (R237). -/
  | unsupportedNonceLength
  /-- The tag differs, or the input is too short to hold one (R239). -/
  | authenticationFailure
  /-- The message or the AAD exceeds its bound (R234). -/
  | inputTooLarge
  /-- The command needs a context or a key schedule that is absent (R235). -/
  | noContext
  /-- The command word is reserved (R235, R87). -/
  | illegalCommand
deriving DecidableEq, Repr

/-- The status field of a response, by name, as R231 asks of a model; its code under `STATUS_ENCODING` is `statusCode`
(R85, R231). -/
inductive Status where
  | ok
  | failed (f : Failure)
deriving DecidableEq, Repr

/-- The response `(STATUS, OUT_LEN, DATA_OUT)` of one command (R85). -/
structure Response where
  status : Status
  outLen : BitVec 64
  dataOut : List Byte
deriving DecidableEq, Repr

/-- The one context slot (R20): all that persists from one command to the next. -/
structure Context where
  /-- `KS_VALID` (R22). -/
  ksValid : Bool
  /-- `CTX_VALID` (R23). -/
  ctxValid : Bool
  /-- `NK`, a 4-bit field (R24). -/
  nk : BitVec 4
  /-- `NR` (R24). It shares the range 0 to 14 of the round number `RND` (R29), so every round key lies in `W`. -/
  nr : Fin 15
  /-- `W[0..59]` (R32). -/
  w : WordFile
  /-- `H` (R33). -/
  h : GF128
  /-- `M[0..15][0..255]` (R34); written and read only with `MUL_STRATEGY = TABLE`. -/
  m : MulTable
deriving DecidableEq, Repr

/-- What the host does next: issue a command with its operands (R81), or reset the engine (R260). Both happen between
commands only (R264, R260). -/
inductive HostMove where
  | issue (r : Issue)
  | reset
deriving DecidableEq, Repr

/-- The engine and its boundary. `ctx` is what persists (R20); `params` is configuration (R18). The working registers
of R29 and the position `SEQ` of R27 hold no value between commands and are local values of the meanings (R30, log 3). -/
structure State where
  /-- The context slot (R20). -/
  ctx : Context
  /-- The configured parameters (R8, R18), written by nothing. -/
  params : Params
  /-- The operand spaces as the last command issue left them (R50, R81); the engine never writes them (R67). -/
  ports : Operands
  /-- The last command's response, a message to the host and not a register that a command could read (R86). -/
  response : Option Response
  /-- The host agent (R17): the moves it has still to make, oldest first. Not a queue of the engine, which has none
  (R264): a move is taken only after the response to the one before it. The model's own field, log 2. -/
  host : List HostMove
deriving DecidableEq, Repr

/-- Reasons for a fault. There is none: every command ends with a response, whatever its input (R236, R19), so no
definition of the model raises one (safe). -/
inductive Fault where
deriving DecidableEq, Repr

/-- Reasons for a refusal. -/
inductive Refusal where
  /-- The arm of an instruction without a meaning, raised by `exec` alone (safe: the run stops). No arm raises it. -/
  | notModelled (mnemonic : String)
deriving DecidableEq, Repr

/-- The context slot after reset (R41, R260): both flags 0. R41 gives the other registers no value; the model holds
zero in them, which no command reads while the flags are 0. DESIGN CHOICE, unsafe, log 1. -/
def Context.reset : Context where
  ksValid := false
  ctxValid := false
  nk := 0
  nr := 0
  w := Vector.replicate 60 0
  h := 0
  m := Vector.replicate 16 (Vector.replicate 256 0)

/-- Operand spaces that nothing has been placed in: empty sequences, zero ports. DESIGN CHOICE, unsafe, log 5. -/
def emptyPorts : Operands where
  keyIn := []
  nonceIn := []
  dataIn := []
  aadIn := []
  xIn := zeroBlock
  yIn := zeroBlock

/-- An engine configured with the parameters `p`, right after reset (R41, R260): no context, idle, the parameters at
their configured values, no response (log 7), and a host that has issued nothing (log 4). -/
def State.resetWith (p : Params) : State where
  ctx := Context.reset
  params := p
  ports := emptyPorts
  response := none
  host := []

/-- The engine right after reset, with the parameters at the defaults of R8 (log 6). -/
def State.reset : State := State.resetWith Params.default

end Sys2Proof.Machine
end

