-- ==== Sys2Proof/Machine/Ops.lean ====
section
/-! DEFINITION. The shared operations: buffers (spec/20_memory.md R52 to R55), byte order (R56 to R59), the word file,
the response of a command, failing (spec/60_exceptions.md R236) and accepting the next command (R242), and reset (R260). -/

namespace Sys2Proof.Machine

/-! ### Byte order -/

/-- A byte sequence as an unsigned integer of width `w`, the first byte most significant: `be32`, `be64`, `be128` of
R12 at their widths. -/
def beValue (w : Nat) (bs : List Byte) : BitVec w :=
  bs.foldl (fun acc b => (acc <<< 8) ||| b.setWidth w) 0

/-- `bytes_be(v, n)`: the `n`-byte big-endian sequence of `v` (R12). -/
def bytesBe {w : Nat} (v : BitVec w) (n : Nat) : List Byte :=
  (List.range n).map fun i => v.extractLsb' (8 * (n - 1 - i)) 8

/-- Sixteen bytes of a sequence as a block. It is used on sequences of exactly 16 bytes (R52, R54). -/
def blockOfBytes (bs : List Byte) : Block := Vector.ofFn fun i => bs.getD i.val 0

/-- Block to field element: `be128(b)` (R57). -/
def elementOfBlock (b : Block) : GF128 := beValue 128 b.toList

/-- Field element to block: `bytes_be(high, 8) ‖ bytes_be(low, 8)`, so byte `k` is integer bits `8*(15-k)+7 : 8*(15-k)`
(R57, R63). -/
def blockOfElement (e : GF128) : Block := Vector.ofFn fun k => e.extractLsb' (8 * (15 - k.val)) 8

/-- The field element with halves `{high, low}` (R11). -/
def elementOfHalves (high low : Half) : GF128 := high ++ low

/-! ### Buffers -/

/-- `MemRead(buf, off, n)`, used with `off + n ≤ len(buf)` (R52). -/
def memRead (buf : List Byte) (off n : Nat) : List Byte := (buf.drop off).take n

/-- `MemWrite(out, off, n, v)` with `n = len(v)` (R53): each command writes its output in ascending order, each write
beginning where the one before it ended. -/
def memWrite (out : List Byte) (off : Nat) (v : List Byte) : List Byte :=
  out.take off ++ v ++ out.drop (off + v.length)

/-- `MemReadPad(buf, off)`: the 16-byte block at `off`, zeros after the end of the data (R54). -/
def memReadPad (buf : List Byte) (off : Nat) : Block :=
  let n := min 16 (buf.length - off)
  blockOfBytes (memRead buf off n ++ List.replicate (16 - n) 0)

/-- `nblocks(len) = (len + 15) / 16` (R55). -/
def nblocks (len : Nat) : Nat := (len + 15) / 16

/-! ### The word file -/

/-- `W[i]` (R13, R32). Every rule reads at `i ≤ 59`. -/
def readW (w : WordFile) (i : Nat) : Word := if h : i < 60 then w[i] else 0

/-- `W[i] <- v` (R13, R32). Every rule writes at `i ≤ 59`. -/
def writeW (w : WordFile) (i : Nat) (v : Word) : WordFile := w.setIfInBounds i v

/-! ### The end of a command -/

/-- The field `OUT_LEN` of a response with `n` bytes of data (R85): `n`, or a free value where 64 bits cannot hold it
(log 8). -/
def outLenOf (n : Nat) : BitVec 64 := if n < 18446744073709551616 then BitVec.ofNat 64 n else Config.outLenBeyond n

/-- The response of a command that succeeds with the bytes `data` (R85). -/
def okResponse (data : List Byte) : Response := { status := .ok, outLen := outLenOf data.length, dataOut := data }

/-- The response of a command that fails: the status, `OUT_LEN = 0`, no data (R85, R236). -/
def failedResponse (f : Failure) : Response := { status := .failed f, outLen := 0, dataOut := [] }

/-- The state in which the response of the command stands at the boundary. -/
def State.withResponse (s : State) (r : Response) : State := { s with response := some r }

/-- The state with another context slot. -/
def State.withCtx (s : State) (c : Context) : State := { s with ctx := c }

/-- A command ends with success and the bytes `data` (R85). -/
def finish (data : List Byte) (s : State) : Host.Outcome State Fault Refusal := .next (s.withResponse (okResponse data))

/-- `raise F`: the command ends, the response carries the failure and no data, the context slot holds what it held when
the command was issued (R236). -/
def raise (f : Failure) (s : State) : Host.Outcome State Fault Refusal := .next (s.withResponse (failedResponse f))

/-- The engine accepts a command of the host: the operands are taken as values at issue (R67), and the host's remaining
moves are `rest`. Nothing of an earlier command's outcome is restored or kept (R242, R38). -/
def accept (r : Issue) (rest : List HostMove) (s : State) : State :=
  { s with ports := r.operands, response := none, host := rest }

/-- The reset event between commands (R260): no context, idle. The parameters are not state and stay; the operand spaces
are the host's and stay. -/
def takeReset (rest : List HostMove) (s : State) : State :=
  { s with ctx := Context.reset, response := none, host := rest }

/-- The engine with no command issued: it never acts on its own (R17). -/
def idle (s : State) : State := s

end Sys2Proof.Machine
end

