-- ==== Sys2Proof/Machine/Operands.lean ====
section
/-! DEFINITION. Operand assembly (spec/30_encoding.md R84): how the bytes of the operand spaces become key words,
lengths, counter blocks and the parts of `OPEN`'s input. Every conversion is big-endian and unsigned. -/

namespace Sys2Proof.Machine

/-- The key length is legal: 16, 24 or 32 bytes (R64, R107, R232). -/
def keyLengthLegal (klen : Nat) : Bool := klen = 16 || klen = 24 || klen = 32

/-- `Nk = klen / 4` (R7, R84). -/
def nkOf (klen : Nat) : Nat := klen / 4

/-- `Nr = Nk + 6` (R7, R84), in the range of `RND`. -/
def nrOf (klen : Nat) : Fin 15 := Fin.ofNat 15 (nkOf klen + 6)

/-- The number of words of the expanded key, `4*(Nr+1)` (R7). -/
def scheduleLength (nr : Nat) : Nat := 4 * (nr + 1)

/-- Word `i` of the key: `be32(KEY_IN[4i : 4i+4])` (R58). -/
def keyWord (key : List Byte) (i : Nat) : Word := beValue 32 (memRead key (4 * i) 4)

/-- `NONCE_SIZE` (R26). -/
def nonceSize : Nat := 12

/-- `OVERHEAD`, the length of a tag (R26). -/
def overhead : Nat := 16

/-- `MAX_PT_BYTES = 2^36 - 32` (R8, R234). -/
def maxPtBytes : Nat := 68719476704

/-- `MAX_AAD_BYTES = 2^61 - 1` (R8, R234). -/
def maxAadBytes : Nat := 2305843009213693951

/-- The nonce as an initial counter block: `high = be64(nonce[0:8])`, `low = (be32(nonce[8:12]) << 32) | 1` (R60, R190). -/
def makeICB (nonce : List Byte) : GF128 :=
  elementOfHalves (beValue 64 (memRead nonce 0 8))
    ((((beValue 32 (memRead nonce 8 4)).setWidth 64) <<< 32) ||| 0x00000001)

/-- The ciphertext part of `OPEN`'s input, `DATA_IN[0 : len-16]` (R84). -/
def openCiphertext (data : List Byte) : List Byte := memRead data 0 (data.length - overhead)

/-- The tag part of `OPEN`'s input, `DATA_IN[len-16 : len]` (R84). -/
def openTag (data : List Byte) : Block := blockOfBytes (memRead data (data.length - overhead) overhead)

/-- The length block `{high = 8*len(aad), low = 8*len(ct)}` (R61). -/
def lengthBlock (aadLen ctLen : Nat) : GF128 :=
  elementOfHalves (BitVec.ofNat 64 (8 * aadLen)) (BitVec.ofNat 64 (8 * ctLen))

end Sys2Proof.Machine
end

