-- ==== Sys2Proof/Machine/Flags.lean ====
section
/-! DEFINITION. The engine has no condition codes (spec/10_state.md R28). What stands in their place: the two validity
flags that guard a command (R22, R23, spec/60_exceptions.md R235), the entry checks of `SEAL` and `OPEN` in their order
(spec/45_aead_seal_open.md R202, R238), and the status codes (R231). -/

namespace Sys2Proof.Machine

/-- The 8-bit code of a failure, under an assignment of codes; under `StatusEncoding.default`, the value column of
R231. -/
def failureCode (e : StatusEncoding) : Failure → Byte
  | .invalidKeyLength => e.invalidKeyLength
  | .invalidBlockLength => e.invalidBlockLength
  | .unsupportedNonceLength => e.unsupportedNonceLength
  | .authenticationFailure => e.authenticationFailure
  | .inputTooLarge => e.inputTooLarge
  | .noContext => e.noContext
  | .illegalCommand => e.illegalCommand

/-- The 8-bit code of a status (R85, R231). -/
def statusCode (e : StatusEncoding) : Status → Byte
  | .ok => e.ok
  | .failed f => failureCode e f

/-- The field `STATUS` that the host sees at the boundary, under the configured `STATUS_ENCODING` (R8, R85). -/
def State.statusByte (s : State) : Option Byte :=
  s.response.map fun r => statusCode s.params.statusEncoding r.status

/-- `clen` for `OPEN`: the length of the ciphertext part, 0 for an input too short to hold a tag (R202). -/
def openClen (data : List Byte) : Nat := if overhead ≤ data.length then data.length - overhead else 0

/-- The entry checks of `SEAL`, in order; `none` where all pass (R202). -/
def sealEntry (s : State) : Option Failure :=
  if s.ctx.ctxValid = false then some .noContext
  else if s.ports.nonceIn.length ≠ nonceSize then some .unsupportedNonceLength
  else if maxPtBytes < s.ports.dataIn.length ∨ maxAadBytes < s.ports.aadIn.length then some .inputTooLarge
  else none

/-- The entry checks of `OPEN`, in order; `none` where all pass (R202). -/
def openEntry (s : State) : Option Failure :=
  if s.ctx.ctxValid = false then some .noContext
  else if s.ports.nonceIn.length ≠ nonceSize then some .unsupportedNonceLength
  else if maxPtBytes < openClen s.ports.dataIn ∨ maxAadBytes < s.ports.aadIn.length then some .inputTooLarge
  else if s.ports.dataIn.length < overhead then some .authenticationFailure
  else none

/-- The entry checks of the commands that encrypt or decrypt one block: `NoContext` first (R134, R135, R238). -/
def blockEntry (s : State) : Option Failure :=
  if s.ctx.ksValid = false then some .noContext
  else if s.ports.dataIn.length ≠ 16 then some .invalidBlockLength
  else none

end Sys2Proof.Machine
end

