-- ==== Sys2Proof/Machine/AesRound.lean ====
section
/-! DEFINITION. The AES round engine (spec/41_aes_round_engine.md R120 to R137): GF(2^8) arithmetic, the round
transformations and their inverses, encryptBlock, decryptBlock, and the commands `ENCRYPTBLOCK` and `DECRYPTBLOCK`.
The working register `STATE` is the matrix that the transformations pass on; `RND` is the index of the round loop (R29). -/

namespace Sys2Proof.Machine

/-! ### GF(2^8) arithmetic -/

/-- xtime: multiply by 2, reducing with `0x1b` on overflow (R127). -/
def xtime (a : Byte) : Byte := if a.getLsbD 7 then (a <<< 1) ^^^ 0x1b else a <<< 1

/-- One turn of R128's loop on `(r, t)`. -/
def mulModStep (b : Byte) (rt : Byte × Byte) (i : Nat) : Byte × Byte :=
  (if b.getLsbD i then rt.1 ^^^ rt.2 else rt.1, xtime rt.2)

/-- mulMod: the product modulo `x^8+x^4+x^3+x+1` by repeated doubling (R128). -/
def mulMod (a b : Byte) : Byte := ((List.range 8).foldl (mulModStep b) (0, a)).1

/-- The affine map of the S-box's algebraic definition, applied to the inverse `b` of the input (R103). -/
def sboxAffine (b : Byte) : Byte :=
  b ^^^ b.rotateLeft 1 ^^^ b.rotateLeft 2 ^^^ b.rotateLeft 3 ^^^ b.rotateLeft 4 ^^^ 0x63

/-! ### Load, store and the round transformations -/

/-- LoadState: `STATE[r][c] <- in[r + 4c]` (R121, R59). -/
def loadState (b : Block) : Matrix44 := Vector.ofFn fun r => Vector.ofFn fun c => b[r.val + 4 * c.val]

/-- StoreState: `out[r + 4c] = STATE[r][c]` (R121, R59). -/
def storeState (st : Matrix44) : Block := Vector.ofFn fun k => st[k.val % 4][k.val / 4]

/-- SubBytes (R122). -/
def subBytes (st : Matrix44) : Matrix44 := Vector.ofFn fun r => Vector.ofFn fun c => sbox st[r][c]

/-- ShiftRows: `S'[r][c] = STATE[r][(c + r) % 4]` (R123). -/
def shiftRows (st : Matrix44) : Matrix44 :=
  Vector.ofFn fun r => Vector.ofFn fun c => st[r][(c.val + r.val) % 4]

/-- Row `r` of a circulant matrix with first row `k0 k1 k2 k3`, times column `c`: entry `j` of row `r` is `k_(j-r)`, so
`k_d` meets `STATE[(r+d) % 4][c]`. -/
def circulantColumn (k0 k1 k2 k3 : Byte) (st : Matrix44) (r c : Fin 4) : Byte :=
  mulMod st[r][c] k0 ^^^ mulMod st[(r.val + 1) % 4][c] k1 ^^^ mulMod st[(r.val + 2) % 4][c] k2
    ^^^ mulMod st[(r.val + 3) % 4][c] k3

/-- MixColumns: the circulant matrix of first row `02 03 01 01` (R124). -/
def mixColumns (st : Matrix44) : Matrix44 :=
  Vector.ofFn fun r => Vector.ofFn fun c => circulantColumn 0x02 0x03 0x01 0x01 st r c

/-- AddRoundKey: `STATE[r][c] ^ W[4k + c][31-8r : 24-8r]` (R125). -/
def addRoundKey (w : WordFile) (k : Nat) (st : Matrix44) : Matrix44 :=
  Vector.ofFn fun r => Vector.ofFn fun c => st[r][c] ^^^ (readW w (4 * k + c.val)).extractLsb' (24 - 8 * r.val) 8

/-- InvSubBytes (R130). -/
def invSubBytes (st : Matrix44) : Matrix44 := Vector.ofFn fun r => Vector.ofFn fun c => invSbox st[r][c]

/-- InvShiftRows: `S'[r][c] = STATE[r][(c - r) % 4]` (R131). -/
def invShiftRows (st : Matrix44) : Matrix44 :=
  Vector.ofFn fun r => Vector.ofFn fun c => st[r][(c.val + 4 - r.val) % 4]

/-- InvMixColumns: the circulant matrix of first row `0e 0b 0d 09` (R132). -/
def invMixColumns (st : Matrix44) : Matrix44 :=
  Vector.ofFn fun r => Vector.ofFn fun c => circulantColumn 0x0e 0x0b 0x0d 0x09 st r c

/-! ### Blocks -/

/-- Round `rnd` of R126, for `rnd` in `1..nr`: MixColumns is skipped on the final round. -/
def encryptRound (w : WordFile) (nr : Nat) (st : Matrix44) (rnd : Nat) : Matrix44 :=
  let shifted := shiftRows (subBytes st)
  addRoundKey w rnd (if rnd = nr then shifted else mixColumns shifted)

/-- encryptBlock over a word file and a round count (R126). -/
def cipher (w : WordFile) (nr : Nat) (b : Block) : Block :=
  storeState ((List.range' 1 nr).foldl (encryptRound w nr) (addRoundKey w 0 (loadState b)))

/-- encryptBlock under the context's `NR` and `W` (R126). -/
def encryptBlock (c : Context) (b : Block) : Block := cipher c.w c.nr b

/-- Step `rnd` of R133, for `rnd` from `nr-1` down to 0: InvMixColumns is skipped at 0. -/
def decryptRound (w : WordFile) (st : Matrix44) (rnd : Nat) : Matrix44 :=
  let keyed := addRoundKey w rnd (invSubBytes (invShiftRows st))
  if rnd = 0 then keyed else invMixColumns keyed

/-- decryptBlock over a word file and a round count (R133). -/
def invCipher (w : WordFile) (nr : Nat) (b : Block) : Block :=
  storeState ((List.range nr).reverse.foldl (decryptRound w) (addRoundKey w nr (loadState b)))

/-- decryptBlock under the context's `NR` and `W` (R133). -/
def decryptBlock (c : Context) (b : Block) : Block := invCipher c.w c.nr b

/-! ### Commands -/

/-- `ENCRYPTBLOCK` (R134). -/
def execEncryptBlock (s : State) : Host.Outcome State Fault Refusal :=
  match blockEntry s with
  | some f => raise f s
  | none => finish (memWrite [] 0 (encryptBlock s.ctx (blockOfBytes (memRead s.ports.dataIn 0 16))).toList) s

/-- `DECRYPTBLOCK` (R135): `IllegalCommand` first, where the option is absent. -/
def execDecryptBlock (s : State) : Host.Outcome State Fault Refusal :=
  if s.params.hasInvCipher = false then raise .illegalCommand s
  else
    match blockEntry s with
    | some f => raise f s
    | none => finish (memWrite [] 0 (decryptBlock s.ctx (blockOfBytes (memRead s.ports.dataIn 0 16))).toList) s

end Sys2Proof.Machine
end

