-- ==== Sys2Proof/Machine/Gctr.lean ====
section
/-! DEFINITION. The counter-mode keystream generator (spec/44_gctr.md R189 to R195) and the command `CIPHERBLOCKS`. -/

namespace Sys2Proof.Machine

/-- inc32: the low 32 bits advanced by `n` modulo 2^32, the high 96 bits unchanged (R191). -/
def inc32 (cb : GF128) (n : Nat) : GF128 :=
  cb.extractLsb' 32 96 ++ (cb.extractLsb' 0 32 + BitVec.ofNat 32 n)

/-- `KS` of block `blk` (1-indexed): the encryption of `CB = inc32(icb, blk)` (R192). -/
def keystreamBlock (c : Context) (icb : GF128) (blk : Nat) : Block := encryptBlock c (blockOfElement (inc32 icb blk))

/-- Block `blk` of the output: the message bytes XOR the keystream, truncated on a final partial block (R192, R66). -/
def cipherBlock (c : Context) (icb : GF128) (message : List Byte) (blk : Nat) : List Byte :=
  let n := min 16 (message.length - 16 * (blk - 1))
  List.zipWith (fun a k => a ^^^ k) (memRead message (16 * (blk - 1)) n) ((keystreamBlock c icb blk).toList.take n)

/-- cipherBlocks (R192): every block of the message, in ascending order. -/
def cipherBlocks (c : Context) (icb : GF128) (message : List Byte) : List Byte :=
  (List.range' 1 (nblocks message.length)).flatMap (cipherBlock c icb message)

/-- `CIPHERBLOCKS` (R193). It checks no length. -/
def execCipherBlocks (s : State) : Host.Outcome State Fault Refusal :=
  if s.ctx.ksValid = false then raise .noContext s
  else finish (memWrite [] 0 (cipherBlocks s.ctx (elementOfBlock s.ports.xIn) s.ports.dataIn)) s

end Sys2Proof.Machine
end

