-- ==== Sys2Proof/Machine/Gf128.lean ====
section
/-! DEFINITION. The Galois Field Engine (spec/42_gf128_multiplier.md R150 to R167): Algorithm 1, the table, the
carry-less form, and the command `GFMUL`. -/

namespace Sys2Proof.Machine

/-- The multiplicative identity: only GCM bit 0 set (R150). -/
def gfOne : GF128 := 0x80000000000000000000000000000000

/-- The reduction constant `R = {0xe100000000000000, 0}` (R152). -/
def gfR : GF128 := 0xe1000000000000000000000000000000

/-- Field addition (R150, R154). -/
def gfAdd (x y : GF128) : GF128 := x ^^^ y

/-! ### Algorithm 1 -/

/-- `V` after one iteration: shift right by one, with `R` where the bit shifted out was set (R153). -/
def mulAlpha (v : GF128) : GF128 := if v.getLsbD 0 then (v >>> 1) ^^^ gfR else v >>> 1

/-- Iteration `i` of Algorithm 1 on `(Z, V)`; GCM bit `i` of `y` is integer bit `127 - i` (R153). -/
def multiplyStep (y : GF128) (zv : GF128 × GF128) (i : Nat) : GF128 × GF128 :=
  (if y.getLsbD (127 - i) then zv.1 ^^^ zv.2 else zv.1, mulAlpha zv.2)

/-- Algorithm 1, the definition of `multiply` (R153). -/
def multiply (x y : GF128) : GF128 := ((List.range 128).foldl (multiplyStep y) (0, x)).1

/-! ### The table -/

/-- The table of `H`: `M[p][v] = multiply(zext_128(v) << (8*(15-p)), H)` (R156). -/
def buildTable (h : GF128) : MulTable :=
  Vector.ofFn fun p => Vector.ofFn fun v => multiply (BitVec.ofNat 128 v.val <<< (8 * (15 - p.val))) h

/-- `M[p][v]` (R34). -/
def readM (m : MulTable) (p : Fin 16) (v : Byte) : GF128 := m[p][v.toFin]

/-- mulH by sixteen lookups (R157). -/
def tableMultiply (m : MulTable) (x : GF128) : GF128 :=
  (List.finRange 16).foldl (fun z p => z ^^^ readM m p (blockOfElement x)[p]) 0

/-! ### The carry-less form -/

/-- rev128 (R159). -/
def rev128 (a : GF128) : GF128 := a.reverse

/-- rev64 (R159). -/
def rev64 (a : Half) : Half := a.reverse

/-- clmul64: the product of polynomials over GF(2), without reduction (R160). -/
def clmul64 (a b : Half) : BitVec 128 :=
  (List.range 64).foldl (fun acc k => if b.getLsbD k then acc ^^^ (a.setWidth 128 <<< k) else acc) 0

/-- The mask `m_i` of the bit class `i` mod 4 (R161). -/
def classMask (i : Nat) : Half := 0x1111111111111111 <<< i

/-- The part of bmul64 in class `k`: `z_k & m_k`, four integer products truncated to 64 bits (R161). -/
def bmulClass (x y : Half) (k : Nat) : Half :=
  ((List.range 4).foldl (fun z i => z ^^^ ((x &&& classMask i) * (y &&& classMask ((k + 4 - i) % 4)))) 0) &&& classMask k

/-- bmul64: the low 64 bits of the carry-less product by bit classes mod 4 (R161). -/
def bmul64 (x y : Half) : Half := bmulClass x y 0 ||| bmulClass x y 1 ||| bmulClass x y 2 ||| bmulClass x y 3

/-- clmul64 by bit classes: the optional realisation of `clmul64` without a carry-less multiplier (R161). -/
def clmul64ByClasses (a b : Half) : BitVec 128 :=
  (((rev64 (bmul64 (rev64 a) (rev64 b)) >>> 1).setWidth 128) <<< 64) ||| (bmul64 a b).setWidth 128

/-- The 256-bit carry-less product of the reflected operands by Karatsuba (R162). -/
def karatsubaProduct (x y : GF128) : BitVec 256 :=
  let a := rev128 x
  let b := rev128 y
  let ah := a.extractLsb' 64 64
  let al := a.extractLsb' 0 64
  let bh := b.extractLsb' 64 64
  let bl := b.extractLsb' 0 64
  let hh := clmul64 ah bh
  let ll := clmul64 al bl
  let mm := clmul64 (ah ^^^ al) (bh ^^^ bl)
  (hh.setWidth 256 <<< 128) ^^^ ((mm ^^^ hh ^^^ ll).setWidth 256 <<< 64) ^^^ ll.setWidth 256

/-- `v ^ (v << 1) ^ (v << 2) ^ (v << 7)`, at a width that drops no bit (R163, R167). -/
def foldShifts (v : BitVec 256) : BitVec 256 := v ^^^ (v <<< 1) ^^^ (v <<< 2) ^^^ (v <<< 7)

/-- The fold of the high 128 bits, twice (R163). -/
def foldProduct (p : BitVec 256) : GF128 :=
  let t := foldShifts (p >>> 128)
  let u := t >>> 128
  p.setWidth 128 ^^^ t.setWidth 128 ^^^ (foldShifts u).setWidth 128

/-- The carry-less multiplication: reflect, multiply, fold, reflect back (R164). -/
def multiplyClmul (x y : GF128) : GF128 := rev128 (foldProduct (karatsubaProduct x y))

/-! ### Binding -/

/-- mulH: the multiply-by-`H` that the bound strategy computes (R165, R181). -/
def mulH (strategy : MulStrategy) (c : Context) (x : GF128) : GF128 :=
  match strategy with
  | .serial => multiply x c.h
  | .table => tableMultiply c.m x
  | .clmul => multiplyClmul x c.h

/-- What `GFMUL` computes with: the carry-less form under `CLMUL`, otherwise Algorithm 1 (R166). -/
def gfmulUnder (strategy : MulStrategy) (x y : GF128) : GF128 :=
  match strategy with
  | .serial => multiply x y
  | .table => multiply x y
  | .clmul => multiplyClmul x y

/-- `GFMUL` (R166). It needs no context. -/
def execGfmul (s : State) : Host.Outcome State Fault Refusal :=
  finish
    (memWrite [] 0
      (blockOfElement
        (gfmulUnder s.params.mulStrategy (elementOfBlock s.ports.xIn) (elementOfBlock s.ports.yIn))).toList)
    s

end Sys2Proof.Machine
end

