-- ==== Sys2Proof/Machine/Ghash.lean ====
section
/-! DEFINITION. The GHASH accumulator (spec/43_ghash.md R180 to R183) and the command `GHASH`. -/

namespace Sys2Proof.Machine

/-- One turn of R181's loop, on the block at offset `16*i`: `ACC <- mulH(ACC ^ B)`. -/
def ghashStep (strategy : MulStrategy) (c : Context) (data : List Byte) (acc : GF128) (i : Nat) : GF128 :=
  mulH strategy c (gfAdd acc (elementOfBlock (memReadPad data (16 * i))))

/-- ghash: the left fold over the blocks of `data` from `initial`; the accumulator is `ACC` (R181). -/
def ghash (strategy : MulStrategy) (c : Context) (data : List Byte) (initial : GF128) : GF128 :=
  (List.range (nblocks data.length)).foldl (ghashStep strategy c data) initial

/-- `GHASH` (R182). -/
def execGhash (s : State) : Host.Outcome State Fault Refusal :=
  if s.ctx.ctxValid = false then raise .noContext s
  else
    finish
      (memWrite [] 0
        (blockOfElement (ghash s.params.mulStrategy s.ctx s.ports.dataIn (elementOfBlock s.ports.xIn))).toList)
      s

end Sys2Proof.Machine
end

