-- ==== Sys2Proof/Machine/KeySchedule.lean ====
section
/-! DEFINITION. The key schedule (spec/40_key_schedule.md R100 to R112): RotWord, SubWord, expandKey, and the command
`EXPANDKEY`. -/

namespace Sys2Proof.Machine

/-- RotWord: rotate left by 8 (R104). -/
def rotWord (w : Word) : Word := (w <<< 8) ||| (w >>> 24)

/-- SubWord: each byte through `SBOX`, in its place (R105). -/
def subWord (w : Word) : Word :=
  sbox (w.extractLsb' 24 8) ++ sbox (w.extractLsb' 16 8) ++ sbox (w.extractLsb' 8 8) ++ sbox (w.extractLsb' 0 8)

/-- `TEMP` at word `i` (R109): `W[i-1]`, transformed at every `Nk`-th word, and by SubWord alone at `i % 8 = 4` for
`Nk = 8`. -/
def scheduleTemp (nk : Nat) (w : WordFile) (i : Nat) : Word :=
  if i % nk = 0 then subWord (rotWord (readW w (i - 1))) ^^^ rcon (i / nk)
  else if nk = 8 ∧ i % nk = 4 then subWord (readW w (i - 1))
  else readW w (i - 1)

/-- `W[i] <- W[i-Nk] ^ TEMP` (R109). -/
def expandStep (nk : Nat) (w : WordFile) (i : Nat) : WordFile :=
  writeW w i (readW w (i - nk) ^^^ scheduleTemp nk w i)

/-- `W[i] <- be32(KEY_IN[4i : 4i+4])` for `i` in `0..Nk-1` (R108). -/
def loadKey (key : List Byte) (nk : Nat) (w : WordFile) : WordFile :=
  (List.range nk).foldl (fun w i => writeW w i (keyWord key i)) w

/-- expandKey into the word file: R108, then R109 for `i` in `Nk..4*(Nr+1)-1` in ascending order (R110). R32 says that
the words from `4*(Nr+1)` up hold no value and are read by no rule; that they keep what they held (an older, longer
key's words) is the model's choice. DESIGN CHOICE, unsafe, log 19. -/
def expandKey (key : List Byte) (w : WordFile) : WordFile :=
  let nk := nkOf key.length
  (List.range' nk (scheduleLength (nk + 6) - nk)).foldl (expandStep nk) (loadKey key nk w)

/-- `NK <- Nk ; NR <- Nr` and the key schedule of `key` into `W`, with `KS_VALID <- 1` (R111, R201). -/
def Context.withSchedule (c : Context) (key : List Byte) : Context :=
  { c with
    ksValid := true
    nk := BitVec.ofNat 4 (nkOf key.length)
    nr := nrOf key.length
    w := expandKey key c.w }

/-- The words `W[0 .. n-1]` written to the output in order, each big-endian (R62, R111). -/
def writeWords (w : WordFile) (n : Nat) : List Byte :=
  (List.range n).foldl (fun out i => memWrite out (4 * i) (bytesBe (readW w i) 4)) []

/-- `EXPANDKEY` (R111). `H` and `M` are not written and become stale, so `CTX_VALID` is cleared (R23, R271). -/
def execExpandKey (s : State) : Host.Outcome State Fault Refusal :=
  if keyLengthLegal s.ports.keyIn.length = false then raise .invalidKeyLength s
  else
    let c := { s.ctx.withSchedule s.ports.keyIn with ctxValid := false }
    finish (writeWords c.w (scheduleLength c.nr)) (s.withCtx c)

end Sys2Proof.Machine
end

