-- ==== Sys2Proof/Machine/Aead.lean ====
section
/-! DEFINITION. The AEAD orchestrator (spec/45_aead_seal_open.md R200 to R213): `NEWAEAD`, `SEAL`, `OPEN`, `NONCESIZE`,
`OVERHEAD`. The working registers `ICB`, `EKY0`, `ACC`, `LENBLK`, `TAGX`, `DIFF` (R29) are local values, fresh in each
command and gone at its end (R30). The phases of `SEQ` (R27, R200) are: 1 the entry checks, 2 `ICB` and `EKY0`, 3 the
body, 4 the response. -/

namespace Sys2Proof.Machine

/-! ### Context construction -/

/-- `H <- be128(encryptBlock(zeros(16)))` under the context's key schedule (R201). -/
def hashSubkey (c : Context) : GF128 := elementOfBlock (encryptBlock c zeroBlock)

/-- `H`, `M` where the strategy is `TABLE`, and `CTX_VALID <- 1`, from the key schedule that the context holds (R201). -/
def Context.withHash (c : Context) (strategy : MulStrategy) : Context :=
  { c with
    ctxValid := true
    h := hashSubkey c
    m := if strategy = .table then buildTable (hashSubkey c) else c.m }

/-- `NEWAEAD` (R201). -/
def execNewAead (s : State) : Host.Outcome State Fault Refusal :=
  if keyLengthLegal s.ports.keyIn.length = false then raise .invalidKeyLength s
  else finish [] (s.withCtx ((s.ctx.withSchedule s.ports.keyIn).withHash s.params.mulStrategy))

/-! ### The tag -/

/-- `EKY0`, the encryption of the initial counter block (R203). -/
def tagMask (c : Context) (icb : GF128) : GF128 := elementOfBlock (encryptBlock c (blockOfElement icb))

/-- computeTag (R204): AAD, then ciphertext, then the length block, each padded alone, masked with `EKY0`. -/
def computeTag (strategy : MulStrategy) (c : Context) (eky0 : GF128) (aad ct : List Byte) : Block :=
  let accAad := ghash strategy c aad 0
  let accCt := ghash strategy c ct accAad
  let lenblk := lengthBlock aad.length ct.length
  let acc := ghash strategy c (bytesBe lenblk 16) accCt
  blockOfElement (gfAdd acc eky0)

/-- ctEqual: all sixteen bytes are visited, `DIFF` collects their differences (R209). -/
def ctEqual (a b : Block) : Bool :=
  let diff := (List.finRange 16).foldl (fun (d : Byte) j => d ||| (a[j] ^^^ b[j])) 0x00
  diff = 0x00

/-- The tag of a ciphertext and an AAD under a nonce: steps 2 and 3 of R200. -/
def expectedTag (strategy : MulStrategy) (c : Context) (nonce aad ct : List Byte) : Block :=
  let icb := makeICB nonce
  computeTag strategy c (tagMask c icb) aad ct

/-! ### Seal and Open -/

/-- The output of `SEAL`: ciphertext, then tag (R205). -/
def sealOutput (strategy : MulStrategy) (c : Context) (nonce plaintext aad : List Byte) : List Byte :=
  let ct := cipherBlocks c (makeICB nonce) plaintext
  memWrite (memWrite [] 0 ct) ct.length (expectedTag strategy c nonce aad ct).toList

/-- `SEAL` (R205). -/
def execSealMessage (s : State) : Host.Outcome State Fault Refusal :=
  match sealEntry s with
  | some f => raise f s
  | none => finish (sealOutput s.params.mulStrategy s.ctx s.ports.nonceIn s.ports.dataIn s.ports.aadIn) s

/-- `OPEN` (R206): the expected tag is compared before any plaintext is produced (R269). -/
def execOpenMessage (s : State) : Host.Outcome State Fault Refusal :=
  match openEntry s with
  | some f => raise f s
  | none =>
    let ct := openCiphertext s.ports.dataIn
    let tagx := expectedTag s.params.mulStrategy s.ctx s.ports.nonceIn s.ports.aadIn ct
    if ctEqual tagx (openTag s.ports.dataIn) = false then raise .authenticationFailure s
    else finish (memWrite [] 0 (cipherBlocks s.ctx (makeICB s.ports.nonceIn) ct)) s

/-! ### Constant queries -/

/-- `NONCESIZE` (R207). -/
def execNonceSize (s : State) : Host.Outcome State Fault Refusal :=
  finish (memWrite [] 0 [BitVec.ofNat 8 nonceSize]) s

/-- `OVERHEAD` (R208). -/
def execOverhead (s : State) : Host.Outcome State Fault Refusal :=
  finish (memWrite [] 0 [BitVec.ofNat 8 overhead]) s

/-- A reserved command word: `IllegalCommand` (R87, R235). -/
def execReserved (s : State) : Host.Outcome State Fault Refusal := raise .illegalCommand s

end Sys2Proof.Machine
end

