-- ==== Sys2Proof/Machine/Dispatch.lean ====
section
/-! DEFINITION. The dispatch on a decoded command (spec/45_aead_seal_open.md R211): one arm per row of
spec/opcode_table.json, in its order. -/

namespace Sys2Proof.Machine

def exec (i : Instr) (s : State) : Host.Outcome State Fault Refusal :=
  match i with
  | .newAead => Sys2Proof.Machine.execNewAead s
  | .sealMessage => Sys2Proof.Machine.execSealMessage s
  | .openMessage => Sys2Proof.Machine.execOpenMessage s
  | .nonceSize => Sys2Proof.Machine.execNonceSize s
  | .overhead => Sys2Proof.Machine.execOverhead s
  | .expandKey => Sys2Proof.Machine.execExpandKey s
  | .encryptBlock => Sys2Proof.Machine.execEncryptBlock s
  | .decryptBlock => Sys2Proof.Machine.execDecryptBlock s
  | .gfmul => Sys2Proof.Machine.execGfmul s
  | .ghash => Sys2Proof.Machine.execGhash s
  | .cipherBlocks => Sys2Proof.Machine.execCipherBlocks s

end Sys2Proof.Machine
end

