-- ==== Sys2Proof/Machine/Step.lean ====
section
/-! DEFINITION. One step of the machine: one move of the host, which is one whole command or a reset (spec/00_scope.md
R9, spec/20_memory.md R69, spec/70_reset_and_hazards.md R260), or nothing where the host makes none (R17). -/

namespace Sys2Proof.Machine

/-- The command `cmd` on an engine that has accepted it: the meaning of the command it decodes to under the configured
`CMD_ENCODING` (R8), or `IllegalCommand` for a reserved word (R87, R238). -/
def runCommand (cmd : Byte) (s : State) : Host.Outcome State Fault Refusal :=
  match decode s.params.cmdEncoding cmd with
  | .ok i => exec i s
  | .error _ => execReserved s

/-- One step. -/
def step (s : State) : Host.Outcome State Fault Refusal :=
  match s.host with
  | [] => .next (idle s)
  | .reset :: rest => .next (takeReset rest s)
  | .issue r :: rest => runCommand r.cmd (accept r rest s)

/-- The host's next move is to issue the command word `w`, with the operands that the operand spaces hold. Nothing else
changes (log 4); on an engine with the default `CMD_ENCODING`, as after reset, `w` is a word of R82. -/
def State.withFetchWord (s : State) (nbits w : Nat) : State :=
  { s with host := .issue { cmd := BitVec.ofNat 8 (w % 2 ^ nbits), operands := s.ports } :: s.host }

end Sys2Proof.Machine
end

