-- ==== Sys2Proof/Safety.lean ====
section
/-! DEFINITION. What a sound engine looks like, in the terms the statements use: a consistent context slot
(spec/10_state.md R22 to R24), the answer of a command, and the operands that a command lists (spec/30_encoding.md R83). -/

namespace Sys2Proof.Machine

/-- The legal values of `NK` and `NR` together (R24). -/
def legalSizes (nk : BitVec 4) (nr : Fin 15) : Prop :=
  nk = 4 ∧ nr = 10 ∨ nk = 6 ∧ nr = 12 ∨ nk = 8 ∧ nr = 14

/-- The words from `nk` up to `n` satisfy the recurrence of the key schedule (R109). -/
def followsSchedule (nk n : Nat) (w : WordFile) : Prop :=
  ∀ i, nk ≤ i → i < n → readW w i = readW w (i - nk) ^^^ scheduleTemp nk w i

/-- `w` holds the expanded key of `key` in its words below `4*(Nr+1)`: the key itself (R108), then the recurrence (R109). -/
def holdsSchedule (key : List Byte) (w : WordFile) : Prop :=
  (∀ i, i < nkOf key.length → readW w i = keyWord key i) ∧
    followsSchedule (nkOf key.length) (scheduleLength (nkOf key.length + 6)) w

/-- What the validity flags promise (R22, R23): with `KS_VALID` the sizes are legal and `W` follows the key schedule;
`CTX_VALID` implies `KS_VALID`, and `H` and `M` were derived from the current `W`. -/
def Context.consistent (c : Context) (strategy : MulStrategy) : Prop :=
  (c.ksValid = true → legalSizes c.nk c.nr ∧ followsSchedule c.nk.toNat (scheduleLength c.nr) c.w) ∧
    (c.ctxValid = true →
      c.ksValid = true ∧ c.h = hashSubkey c ∧ (strategy = .table → c.m = buildTable c.h))

/-- The state's context slot is consistent under the state's strategy. -/
def State.consistent (s : State) : Prop := s.ctx.consistent s.params.mulStrategy

/-- Two contexts agree on all that a response can depend on: everything but the table (R165). -/
def Context.agreesBesideTable (c d : Context) : Prop :=
  c.ksValid = d.ksValid ∧ c.ctxValid = d.ctxValid ∧ c.nk = d.nk ∧ c.nr = d.nr ∧ c.w = d.w ∧ c.h = d.h

/-- The command `i` answers `r` and changes nothing else: neither the context slot, nor the parameters, nor the operand
spaces, nor the host's moves. -/
def answers (i : Instr) (s : State) (r : Response) : Prop := exec i s = .next { s with response := some r }

/-- The validity flag that the command needs is set (the column "needs" of R40; R262). -/
def Context.readyFor (c : Context) : Instr → Prop
  | .sealMessage | .openMessage | .ghash => c.ctxValid = true
  | .encryptBlock | .decryptBlock | .cipherBlocks => c.ksValid = true
  | .newAead | .nonceSize | .overhead | .expandKey | .gfmul => True

/-- Two operand tuples agree on the operands that the command lists (R83). -/
def Operands.agreeFor (a b : Operands) : Instr → Prop
  | .newAead | .expandKey => a.keyIn = b.keyIn
  | .sealMessage | .openMessage => a.nonceIn = b.nonceIn ∧ a.dataIn = b.dataIn ∧ a.aadIn = b.aadIn
  | .nonceSize | .overhead => True
  | .encryptBlock | .decryptBlock => a.dataIn = b.dataIn
  | .gfmul => a.xIn = b.xIn ∧ a.yIn = b.yIn
  | .ghash | .cipherBlocks => a.dataIn = b.dataIn ∧ a.xIn = b.xIn

/-- The bytes of a sequence, padded with zeros to the next multiple of 16 (R65). -/
def pad16 (bs : List Byte) : List Byte := bs ++ List.replicate (16 * nblocks bs.length - bs.length) 0

/-- The byte at `j` with its bit `b` flipped (R210). -/
def flipBit (bs : List Byte) (j b : Nat) : List Byte := bs.set j (bs.getD j 0 ^^^ (1#8 <<< b))

end Sys2Proof.Machine
end

