-- ==== Sys2Proof/WellFormed.lean ====
section
/-! DEFINITION. Which commands exist on a configured engine, and which operand lengths each accepts
(spec/30_encoding.md R83, R87, spec/20_memory.md R64), and which values of the two encodings are assignments
(spec/00_scope.md R8). A command that fails a check is not stopped: the engine reports the failure that its rule names.
These predicates say where a command runs to success as far as lengths go. -/

namespace Sys2Proof

/-- No two commands have one word (R8, R82). -/
def CmdEncoding.wellFormed (e : CmdEncoding) : Bool := decide (allCommands.map (encode e)).Nodup

/-- No two statuses have one code (R8, spec/60_exceptions.md R231). -/
def StatusEncoding.wellFormed (e : StatusEncoding) : Bool :=
  decide [e.ok, e.invalidKeyLength, e.invalidBlockLength, e.unsupportedNonceLength, e.authenticationFailure,
    e.inputTooLarge, e.noContext, e.illegalCommand].Nodup

/-- The command is present: every row is, but for `DECRYPTBLOCK`, present only with `HAS_INV_CIPHER` (R82, R87). -/
def Instr.wellFormed (p : Params) : Instr → Bool
  | .decryptBlock => p.hasInvCipher
  | .newAead | .sealMessage | .openMessage | .nonceSize | .overhead | .expandKey | .encryptBlock | .gfmul | .ghash
  | .cipherBlocks => true

/-- The lengths of the operands that the command reads are among the legal ones (R64, R83, R234). -/
def Operands.wellFormedFor (o : Operands) : Instr → Bool
  | .newAead | .expandKey => o.keyIn.length = 16 || o.keyIn.length = 24 || o.keyIn.length = 32
  | .encryptBlock | .decryptBlock => o.dataIn.length = 16
  | .sealMessage =>
    o.nonceIn.length = 12 && o.dataIn.length ≤ 68719476704 && o.aadIn.length ≤ 2305843009213693951
  | .openMessage =>
    o.nonceIn.length = 12 && 16 ≤ o.dataIn.length && o.dataIn.length ≤ 68719476720
      && o.aadIn.length ≤ 2305843009213693951
  | .nonceSize | .overhead | .gfmul | .ghash | .cipherBlocks => true

end Sys2Proof
end

