-- ==== Sys2Proof/Certificates/Slice0/Obligations.lean ====
section
/-! DEFINITION. The statements for the provers, from the numbered rules of spec/. -/

open Sys2Proof Sys2Proof.Machine

/-! ### The whole machine -/

/-- R41, R260: after reset both validity flags are 0 and the parameters hold their configured values, whatever they are.
The other clauses are the model's choices: that `State.reset` is the engine configured with the defaults of R8 (log 6),
that no response stands (log 7), and that the reset engine, whose host has issued nothing, is idle (logs 2 and 4). The
zeros in the other registers are the model's choice too (log 1), and nothing here rests on them. -/
def Obligations.ResetLeavesNoContext : Prop :=
  (∀ p : Params,
    (State.resetWith p).ctx.ksValid = false ∧ (State.resetWith p).ctx.ctxValid = false ∧
      (State.resetWith p).params = p ∧ (State.resetWith p).response = none ∧
      step (State.resetWith p) = .next (State.resetWith p)) ∧
    State.reset = State.resetWith Params.default ∧
    Params.default =
      { mulStrategy := .table, hasInvCipher := false, cmdEncoding := CmdEncoding.default
        statusEncoding := StatusEncoding.default }

/-- The invariant that `StepKeepsContextConsistent` carries holds at reset, whatever the parameters. -/
def Obligations.ResetContextIsConsistent : Prop :=
  State.reset.consistent ∧ ∀ p : Params, (State.resetWith p).consistent

/-- R22, R23, R24: whatever one step does, from any state with a consistent context slot, the slot stays consistent:
legal sizes and a key schedule behind `KS_VALID`, a fresh `H` and `M` behind `CTX_VALID`. -/
def Obligations.StepKeepsContextConsistent : Prop :=
  ∀ s t : State, s.consistent → step s = .next t → t.consistent

/-- R9, R67, R69: a step on an issued command whose word decodes under the configured `CMD_ENCODING` is that command's
meaning, on the state whose operand spaces hold the issue's operands. That the host's moves stand in the state and that
this one is used up is log 2, that the old response is gone is log 7. -/
def Obligations.StepRunsDecodedCommand : Prop :=
  ∀ (s : State) (r : Issue) (rest : List HostMove) (i : Instr),
    s.host = .issue r :: rest → decode s.params.cmdEncoding r.cmd = .ok i →
      step s = exec i { s with ports := r.operands, response := none, host := rest }

/-- R87 (the spec's decision D9): a step on a reserved word (one that encodes no command under the configured
`CMD_ENCODING`, or `DECRYPTBLOCK`'s, `0x12` by default, without the inverse cipher) answers `IllegalCommand` with no
output, and the context slot, the parameters and the issue's operands are untouched. -/
def Obligations.ReservedWordsFailWithIllegalCommand : Prop :=
  ∀ (s : State) (r : Issue) (rest : List HostMove),
    s.host = .issue r :: rest →
    ((∀ i, r.cmd ≠ encode s.params.cmdEncoding i) ∨
      (decode s.params.cmdEncoding r.cmd = .ok .decryptBlock ∧ s.params.hasInvCipher = false)) →
      step s = .next { s with
        ports := r.operands
        response := some { status := .failed .illegalCommand, outLen := 0, dataOut := [] }
        host := rest }

/-- R260, R41: the reset move clears both flags and the parameters stay. That the operand spaces stay and that no
response stands is the model's choice (log 11, log 7), and that the move is used up is log 2. -/
def Obligations.ResetMoveDiscardsContext : Prop :=
  ∀ (s : State) (rest : List HostMove), s.host = .reset :: rest →
    ∃ t, step s = .next t ∧ t.ctx.ksValid = false ∧ t.ctx.ctxValid = false ∧ t.params = s.params ∧
      t.ports = s.ports ∧ t.response = none ∧ t.host = rest

/-- R17: the engine never acts on its own: where the host makes no move (an empty list, log 2), nothing changes. -/
def Obligations.IdleEngineChangesNothing : Prop :=
  ∀ s : State, s.host = [] → step s = .next s

/-- R82: words written out from the table, the default of `CMD_ENCODING`, one per component and the three ends of its
ranges. -/
def Obligations.SampleWordsDecode : Prop :=
  decode CmdEncoding.default 0b00000000 = .ok .newAead ∧ decode CmdEncoding.default 0b00000010 = .ok .openMessage ∧
    decode CmdEncoding.default 0b00010000 = .ok .expandKey ∧
    decode CmdEncoding.default 0b00010010 = .ok .decryptBlock ∧
    decode CmdEncoding.default 0b00100000 = .ok .gfmul ∧ decode CmdEncoding.default 0b00110000 = .ok .ghash ∧
    decode CmdEncoding.default 0b01000000 = .ok .cipherBlocks ∧
    decode CmdEncoding.default 0b00000101 = .error (.reservedFunction 5) ∧
    decode CmdEncoding.default 0b11111111 = .error (.reservedUnit 255)

/-- R8, R82, R88: the table of R82 gives no two commands one word, and under every such assignment of command words, a
word decodes to a command exactly when it is that command's encoding. -/
def Obligations.DecodeAndEncodeAgree : Prop :=
  CmdEncoding.default.wellFormed = true ∧
    ∀ e : CmdEncoding, e.wellFormed = true → ∀ (cmd : Byte) (i : Instr), decode e cmd = .ok i ↔ cmd = encode e i

/-- R85, R236: every command, in every state, ends with one response; a failure carries no data. -/
def Obligations.EveryCommandAnswersOneResponse : Prop :=
  ∀ (i : Instr) (s : State), ∃ t r, exec i s = .next t ∧ t.response = some r ∧
    (r.status ≠ .ok → r.outLen = 0 ∧ r.dataOut = [])

/-- R236: a command that fails changes nothing but the response, which is the failure with no data. -/
def Obligations.FailedCommandHasNoEffect : Prop :=
  ∀ (i : Instr) (s t : State) (r : Response) (f : Failure),
    exec i s = .next t → t.response = some r → r.status = .failed f →
      t = { s with response := some { status := .failed f, outLen := 0, dataOut := [] } }

/-- R37: every command but the two constructing ones leaves the context slot as it was, whether it succeeds or fails. -/
def Obligations.OnlyConstructionWritesContext : Prop :=
  ∀ (i : Instr) (s t : State), i ≠ .newAead → i ≠ .expandKey → exec i s = .next t → t.ctx = s.ctx

/-- R67, R68, R25: no command writes an operand space or a parameter, nor the host's moves (log 2). -/
def Obligations.NoCommandWritesItsInputs : Prop :=
  ∀ (i : Instr) (s t : State), exec i s = .next t → t.ports = s.ports ∧ t.params = s.params ∧ t.host = s.host

/-- R83, R262: a command that is present, with the flag it needs and operands of the lengths it accepts, succeeds; of
`OPEN`, whose tag may differ, see the statements below. -/
def Obligations.CommandsSucceedOnLegalOperands : Prop :=
  ∀ (i : Instr) (s : State), i.wellFormed s.params = true → s.ports.wellFormedFor i = true → s.ctx.readyFor i →
    i ≠ .openMessage → ∃ t r, exec i s = .next t ∧ t.response = some r ∧ r.status = .ok

/-- R38 (derived by the spec from R30 and R37): the answer and the context slot after a command depend on the context
slot, the parameters and the operands alone: not on an earlier response, nor on what the host does next. -/
def Obligations.AnswerDependsOnContextAndOperands : Prop :=
  ∀ (i : Instr) (s u t : State), s.ctx = u.ctx → s.params = u.params → s.ports = u.ports → exec i s = .next t →
    ∃ v, exec i u = .next v ∧ v.response = t.response ∧ v.ctx = t.ctx

/-- R81, R83: the operands that a command does not list have no effect on its answer or on the context slot. -/
def Obligations.UnlistedOperandsAreIgnored : Prop :=
  ∀ (i : Instr) (s u t : State), s.ctx = u.ctx → s.params = u.params → Operands.agreeFor s.ports u.ports i →
    exec i s = .next t → ∃ v, exec i u = .next v ∧ v.response = t.response ∧ v.ctx = t.ctx

/-- R40, R41 (the spec infers it from R22, R23 and R40): while no key schedule and no context is valid, no answer
depends on what `NK`, `NR`, `W`, `H` and `M` hold: whatever they hold after reset, no command reads them. -/
def Obligations.UnwrittenRegistersAreNeverRead : Prop :=
  ∀ (i : Instr) (s u t : State),
    s.ctx.ksValid = false → s.ctx.ctxValid = false → u.ctx.ksValid = false → u.ctx.ctxValid = false →
    s.params = u.params → s.ports = u.ports → exec i s = .next t →
      ∃ v, exec i u = .next v ∧ v.response = t.response

/-- R85: `OUT_LEN` is the number of bytes of `DATA_OUT`, whenever 64 bits can hold it. -/
def Obligations.OutLenCountsTheData : Prop :=
  ∀ (i : Instr) (s t : State) (r : Response), exec i s = .next t → t.response = some r →
    r.dataOut.length < 2 ^ 64 → r.outLen.toNat = r.dataOut.length

/-- R25, R165, R8: no response depends on `MUL_STRATEGY`, nor on the two encodings: two engines whose contexts agree
beside the table, each consistent under its own strategy, answer alike and go on agreeing. -/
def Obligations.NoAnswerDependsOnStrategy : Prop :=
  ∀ (i : Instr) (s u t : State),
    s.consistent → u.consistent → s.ctx.agreesBesideTable u.ctx → s.params.hasInvCipher = u.params.hasInvCipher →
    s.ports = u.ports → exec i s = .next t →
      ∃ v, exec i u = .next v ∧ v.response = t.response ∧ t.ctx.agreesBesideTable v.ctx

/-! ### Key schedule -/

/-- R108, R109, R111: `EXPANDKEY` on a key of a legal length sets `NK` and `NR`, fills the words below `4*(Nr+1)` with
the key schedule, sets `KS_VALID`, clears `CTX_VALID`, leaves `H` and `M`, and answers the words, each big-endian. That
the words from `4*(Nr+1)` up keep what they held is the model's choice, log 19 (R32 gives them no value). -/
def Obligations.ExpandKeyWritesKeySchedule : Prop :=
  ∀ s : State, s.ports.keyIn.length = 16 ∨ s.ports.keyIn.length = 24 ∨ s.ports.keyIn.length = 32 →
    ∃ t, exec .expandKey s = .next t ∧
      t.ctx.ksValid = true ∧ t.ctx.ctxValid = false ∧
      t.ctx.nk.toNat = s.ports.keyIn.length / 4 ∧ t.ctx.nr.val = s.ports.keyIn.length / 4 + 6 ∧
      holdsSchedule s.ports.keyIn t.ctx.w ∧
      (∀ i, 4 * (s.ports.keyIn.length / 4 + 7) ≤ i → readW t.ctx.w i = readW s.ctx.w i) ∧
      t.ctx.h = s.ctx.h ∧ t.ctx.m = s.ctx.m ∧
      t.params = s.params ∧ t.ports = s.ports ∧ t.host = s.host ∧
      t.response = some
        { status := .ok
          outLen := BitVec.ofNat 64 (16 * (s.ports.keyIn.length / 4 + 7))
          dataOut := (List.range (4 * (s.ports.keyIn.length / 4 + 7))).flatMap fun i => bytesBe (readW t.ctx.w i) 4 }

/-- R107, R232: a key of any other length fails both constructing commands, and nothing changes. -/
def Obligations.IllegalKeyLengthsFail : Prop :=
  ∀ s : State, s.ports.keyIn.length ≠ 16 → s.ports.keyIn.length ≠ 24 → s.ports.keyIn.length ≠ 32 →
    answers .expandKey s { status := .failed .invalidKeyLength, outLen := 0, dataOut := [] } ∧
      answers .newAead s { status := .failed .invalidKeyLength, outLen := 0, dataOut := [] }

/-- R201: `NEWAEAD` on a key of a legal length builds the key schedule as `EXPANDKEY` does, derives `H` from it by
encrypting the zero block, builds `M` where the strategy is `TABLE` and leaves it otherwise (log 13), sets both flags,
and answers no bytes. That the words from `4*(Nr+1)` up keep what they held is the model's choice, log 19. -/
def Obligations.NewAeadBuildsContext : Prop :=
  ∀ s : State, s.ports.keyIn.length = 16 ∨ s.ports.keyIn.length = 24 ∨ s.ports.keyIn.length = 32 →
    ∃ t, exec .newAead s = .next t ∧
      t.ctx.ksValid = true ∧ t.ctx.ctxValid = true ∧
      t.ctx.nk.toNat = s.ports.keyIn.length / 4 ∧ t.ctx.nr.val = s.ports.keyIn.length / 4 + 6 ∧
      holdsSchedule s.ports.keyIn t.ctx.w ∧
      (∀ i, 4 * (s.ports.keyIn.length / 4 + 7) ≤ i → readW t.ctx.w i = readW s.ctx.w i) ∧
      t.ctx.h = elementOfBlock (encryptBlock t.ctx zeroBlock) ∧
      (s.params.mulStrategy = .table →
        ∀ (p : Fin 16) (v : Byte), readM t.ctx.m p v = multiply (v.setWidth 128 <<< (8 * (15 - p.val))) t.ctx.h) ∧
      (s.params.mulStrategy ≠ .table → t.ctx.m = s.ctx.m) ∧
      t.params = s.params ∧ t.ports = s.ports ∧ t.host = s.host ∧
      t.response = some { status := .ok, outLen := 0, dataOut := [] }

/-- R201: a successful `NEWAEAD` replaces whatever context stood before, entirely: over any two slots, the same key
under the same parameters leaves the same flags, sizes, live words and `H`, and the same `M` where there is one. -/
def Obligations.NewAeadReplacesAnyContext : Prop :=
  ∀ s u t v : State, s.params = u.params → s.ports.keyIn = u.ports.keyIn →
    s.ports.keyIn.length = 16 ∨ s.ports.keyIn.length = 24 ∨ s.ports.keyIn.length = 32 →
    exec .newAead s = .next t → exec .newAead u = .next v →
      v.ctx.ksValid = t.ctx.ksValid ∧ v.ctx.ctxValid = t.ctx.ctxValid ∧ v.ctx.nk = t.ctx.nk ∧ v.ctx.nr = t.ctx.nr ∧
        (∀ i, i < 4 * (t.ctx.nr.val + 1) → readW v.ctx.w i = readW t.ctx.w i) ∧ v.ctx.h = t.ctx.h ∧
        (s.params.mulStrategy = .table → v.ctx.m = t.ctx.m)

/-- R271: a successful `EXPANDKEY` leaves `H` and `M`, clears `CTX_VALID`, and after it `SEAL`, `OPEN` and `GHASH` fail
with `NoContext` whatever their operands. -/
def Obligations.ExpandKeyDisablesAead : Prop :=
  ∀ (s t : State) (o : Operands),
    s.ports.keyIn.length = 16 ∨ s.ports.keyIn.length = 24 ∨ s.ports.keyIn.length = 32 →
    exec .expandKey s = .next t →
      t.ctx.ctxValid = false ∧ t.ctx.h = s.ctx.h ∧ t.ctx.m = s.ctx.m ∧
        answers .sealMessage { t with ports := o } { status := .failed .noContext, outLen := 0, dataOut := [] } ∧
        answers .openMessage { t with ports := o } { status := .failed .noContext, outLen := 0, dataOut := [] } ∧
        answers .ghash { t with ports := o } { status := .failed .noContext, outLen := 0, dataOut := [] }

/-- R32: no rule reads the words from `4*(NR+1)` up: block encryption and decryption do not depend on them. -/
def Obligations.WordsAboveTheScheduleAreUnread : Prop :=
  ∀ (c d : Context) (b : Block), c.nr = d.nr → (∀ i, i < 4 * (c.nr.val + 1) → readW c.w i = readW d.w i) →
    encryptBlock c b = encryptBlock d b ∧ decryptBlock c b = decryptBlock d b

/-! ### The AES round engine -/

/-- R103: the table is the algebraic S-box: the affine map of the inverse in GF(2^8), and of 0 for 0. -/
def Obligations.SboxMeetsItsAlgebraicDefinition : Prop :=
  sbox 0 = sboxAffine 0 ∧ ∀ a b : Byte, mulMod a b = 1 → sbox a = sboxAffine b

/-- R129 (the spec marks it as derived from R102): `INV_SBOX` undoes `SBOX`, and `SBOX` undoes `INV_SBOX`. -/
def Obligations.InvSboxUndoesSbox : Prop :=
  ∀ a : Byte, invSbox (sbox a) = a ∧ sbox (invSbox a) = a

/-- R121: LoadState puts byte `r + 4c` of the block at `STATE[r][c]`, StoreState reads it back from there, and
StoreState undoes LoadState. -/
def Obligations.StoreStateUndoesLoadState : Prop :=
  ∀ (b : Block) (st : Matrix44), storeState (loadState b) = b ∧
    ∀ r c : Fin 4, (loadState b)[r][c] = b.toList.getD (r.val + 4 * c.val) 0 ∧
      (storeState st).toList.getD (r.val + 4 * c.val) 0 = st[r][c]

/-- R130, R131, R132 (the spec's own inference, the source naming them only as mirrored): each inverse transformation
undoes its transformation, and the transformation undoes it; AddRoundKey is its own inverse (R125). -/
def Obligations.RoundTransformationsInvert : Prop :=
  ∀ st : Matrix44,
    invSubBytes (subBytes st) = st ∧ subBytes (invSubBytes st) = st ∧
    invShiftRows (shiftRows st) = st ∧ shiftRows (invShiftRows st) = st ∧
    invMixColumns (mixColumns st) = st ∧ mixColumns (invMixColumns st) = st ∧
    ∀ (w : WordFile) (k : Nat), addRoundKey w k (addRoundKey w k st) = st

/-- R133 (derived by the spec from R126): decryptBlock and encryptBlock undo each other, for every round count and
every word file (so for every valid `W`). -/
def Obligations.DecryptBlockInvertsEncryptBlock : Prop :=
  ∀ (c : Context) (b : Block), decryptBlock c (encryptBlock c b) = b ∧ encryptBlock c (decryptBlock c b) = b

/-- R134: with a key schedule and 16 bytes of input, `ENCRYPTBLOCK` answers the encrypted block and changes nothing. -/
def Obligations.EncryptBlockAnswersCiphertext : Prop :=
  ∀ (s : State) (b : Block), s.ctx.ksValid = true → s.ports.dataIn = b.toList →
    answers .encryptBlock s { status := .ok, outLen := 16, dataOut := (encryptBlock s.ctx b).toList }

/-- R135: with the inverse cipher present, a key schedule and 16 bytes of input, `DECRYPTBLOCK` answers the block whose
encryption the input is, and changes nothing. -/
def Obligations.DecryptBlockAnswersPlaintext : Prop :=
  ∀ (s : State) (b : Block), s.params.hasInvCipher = true → s.ctx.ksValid = true → s.ports.dataIn = b.toList →
    answers .decryptBlock s { status := .ok, outLen := 16, dataOut := (decryptBlock s.ctx b).toList } ∧
      encryptBlock s.ctx (decryptBlock s.ctx b) = b

/-- R134, R135, R238: `DECRYPTBLOCK` without the option is illegal whatever the state; then a missing key schedule comes
before a wrong block length, in both block commands. -/
def Obligations.BlockCommandFailuresInOrder : Prop :=
  ∀ s : State,
    (s.params.hasInvCipher = false →
      answers .decryptBlock s { status := .failed .illegalCommand, outLen := 0, dataOut := [] }) ∧
    (s.ctx.ksValid = false →
      answers .encryptBlock s { status := .failed .noContext, outLen := 0, dataOut := [] } ∧
      (s.params.hasInvCipher = true →
        answers .decryptBlock s { status := .failed .noContext, outLen := 0, dataOut := [] })) ∧
    (s.ctx.ksValid = true → s.ports.dataIn.length ≠ 16 →
      answers .encryptBlock s { status := .failed .invalidBlockLength, outLen := 0, dataOut := [] } ∧
      (s.params.hasInvCipher = true →
        answers .decryptBlock s { status := .failed .invalidBlockLength, outLen := 0, dataOut := [] }))

/-! ### The GF(2^128) multiplier -/

/-- R151: multiplication is commutative. -/
def Obligations.MultiplyCommutes : Prop :=
  ∀ x y : GF128, multiply x y = multiply y x

/-- R151: multiplication is associative. -/
def Obligations.MultiplyAssociates : Prop :=
  ∀ x y z : GF128, multiply (multiply x y) z = multiply x (multiply y z)

/-- R151: multiplication distributes over addition on both sides, zero annihilates, and `one` is the identity
(the last two the spec derives from R150 and R153). -/
def Obligations.MultiplyDistributesWithZeroAndOne : Prop :=
  ∀ x y z : GF128, multiply x (y ^^^ z) = multiply x y ^^^ multiply x z ∧
    multiply (x ^^^ y) z = multiply x z ^^^ multiply y z ∧ multiply x 0 = 0 ∧ multiply 0 x = 0 ∧
    multiply x gfOne = x ∧ multiply gfOne x = x

/-- R156, R157 (the spec derives it from R151): sixteen lookups in the table of `H` multiply by `H`, for every
element. -/
def Obligations.TableMultiplyEqualsMultiply : Prop :=
  ∀ h x : GF128, tableMultiply (buildTable h) x = multiply x h

/-- R164: the carry-less multiplication equals Algorithm 1, for every pair of elements. -/
def Obligations.CarrylessMultiplyEqualsMultiply : Prop :=
  ∀ x y : GF128, multiplyClmul x y = multiply x y

/-- R166: `GFMUL` answers the product of Algorithm 1 under every strategy, needs no context and changes nothing. -/
def Obligations.GfmulAnswersProduct : Prop :=
  ∀ s : State, answers .gfmul s
    { status := .ok
      outLen := 16
      dataOut := (blockOfElement (multiply (elementOfBlock s.ports.xIn) (elementOfBlock s.ports.yIn))).toList }

/-! ### GHASH -/

/-- R181, R182: with a consistent valid context, `GHASH` answers the left fold `ACC <- multiply(ACC ^ B, H)` over the
zero-padded blocks of the data, from `initial`, under every strategy, and changes nothing. -/
def Obligations.GhashAnswersHornerFold : Prop :=
  ∀ s : State, s.consistent → s.ctx.ctxValid = true →
    answers .ghash s
      { status := .ok
        outLen := 16
        dataOut := (blockOfElement ((List.range (nblocks s.ports.dataIn.length)).foldl
          (fun acc i => multiply (acc ^^^ elementOfBlock (memReadPad s.ports.dataIn (16 * i))) s.ctx.h)
          (elementOfBlock s.ports.xIn))).toList }

/-- R181, chaining (derived by the spec from its own loop): the first part is padded before the second begins. -/
def Obligations.GhashChains : Prop :=
  ∀ (strategy : MulStrategy) (c : Context) (d e : List Byte) (a : GF128),
    ghash strategy c (pad16 d ++ e) a = ghash strategy c e (ghash strategy c d a)

/-- R181, R54: empty data returns the initial value unchanged, and zeros up to the next multiple of 16 change
nothing. -/
def Obligations.GhashPaddingIsInvisible : Prop :=
  ∀ (strategy : MulStrategy) (c : Context) (d : List Byte) (a : GF128),
    ghash strategy c [] a = a ∧
      ∀ k, d.length + k ≤ 16 * nblocks d.length → ghash strategy c (d ++ List.replicate k 0) a = ghash strategy c d a

/-! ### GCTR -/

/-- R191: the low 32 bits advance modulo 2^32 and no other bit changes; increments add up; 2^32 of them are none. -/
def Obligations.IncrementWrapsLowThirtyTwoBits : Prop :=
  ∀ (cb : GF128) (n m : Nat),
    (inc32 cb n).extractLsb' 32 96 = cb.extractLsb' 32 96 ∧
    ((inc32 cb n).extractLsb' 0 32).toNat = ((cb.extractLsb' 0 32).toNat + n) % 2 ^ 32 ∧
    inc32 (inc32 cb n) m = inc32 cb (n + m) ∧ inc32 cb (2 ^ 32) = cb ∧
    inc32 0xfedcba9876543210fedcba98ffffffff 1 = 0xfedcba9876543210fedcba9800000000 ∧
    inc32 0xffffffffffffffffffffffffffffffff 1 = 0xffffffffffffffffffffffff00000000 ∧
    inc32 0xcafebabefacedbaddecaf88800000001 0xffffffff = 0xcafebabefacedbaddecaf88800000000

/-- R60, R190: the initial counter block of a 12-byte nonce is, as bytes, the nonce and then `00 00 00 01`. -/
def Obligations.CounterBlockIsNonceThenOne : Prop :=
  ∀ nonce : List Byte, nonce.length = 12 → (blockOfElement (makeICB nonce)).toList = nonce ++ [0, 0, 0, 1]

/-- R192, R193: with a key schedule, `CIPHERBLOCKS` answers as many bytes as the message has and changes nothing; byte
`j` is the message's byte XOR byte `j % 16` of the encryption of the counter block advanced by `j / 16 + 1`. `OUT_LEN`
is `outLenOf`: the message's length below 2^64 bytes (R193), and a free value from there on, where 64 bits cannot hold
it (the model's choice, log 8). -/
def Obligations.CipherBlocksXorsKeystream : Prop :=
  ∀ s : State, s.ctx.ksValid = true →
    ∃ out : List Byte,
      exec .cipherBlocks s = .next { s with
        response := some { status := .ok, outLen := outLenOf s.ports.dataIn.length, dataOut := out } } ∧
      out.length = s.ports.dataIn.length ∧
      ∀ j, j < s.ports.dataIn.length →
        out.getD j 0 = s.ports.dataIn.getD j 0 ^^^
          (encryptBlock s.ctx (blockOfElement (inc32 (elementOfBlock s.ports.xIn) (j / 16 + 1)))).toList.getD (j % 16) 0

/-- R192: the keystream applied twice gives the message back. -/
def Obligations.CipherBlocksIsItsOwnInverse : Prop :=
  ∀ (c : Context) (icb : GF128) (message : List Byte), cipherBlocks c icb (cipherBlocks c icb message) = message

/-! ### Seal and Open -/

/-- R205: with a valid context, a 12-byte nonce and lengths within the bounds, `SEAL` answers the ciphertext followed by
the tag, `len(plaintext) + 16` bytes, and changes nothing. -/
def Obligations.SealAnswersCiphertextThenTag : Prop :=
  ∀ s : State, s.ctx.ctxValid = true → s.ports.nonceIn.length = 12 → s.ports.dataIn.length ≤ 2 ^ 36 - 32 →
    s.ports.aadIn.length ≤ 2 ^ 61 - 1 →
      (cipherBlocks s.ctx (makeICB s.ports.nonceIn) s.ports.dataIn).length = s.ports.dataIn.length ∧
      answers .sealMessage s
        { status := .ok
          outLen := BitVec.ofNat 64 (s.ports.dataIn.length + 16)
          dataOut := cipherBlocks s.ctx (makeICB s.ports.nonceIn) s.ports.dataIn ++
            (expectedTag s.params.mulStrategy s.ctx s.ports.nonceIn s.ports.aadIn
              (cipherBlocks s.ctx (makeICB s.ports.nonceIn) s.ports.dataIn)).toList }

/-- R202, R238: the entry checks of `SEAL`, each where the ones before it pass. -/
def Obligations.SealFailuresInOrder : Prop :=
  ∀ s : State,
    (s.ctx.ctxValid = false →
      answers .sealMessage s { status := .failed .noContext, outLen := 0, dataOut := [] }) ∧
    (s.ctx.ctxValid = true → s.ports.nonceIn.length ≠ 12 →
      answers .sealMessage s { status := .failed .unsupportedNonceLength, outLen := 0, dataOut := [] }) ∧
    (s.ctx.ctxValid = true → s.ports.nonceIn.length = 12 →
      2 ^ 36 - 32 < s.ports.dataIn.length ∨ 2 ^ 61 - 1 < s.ports.aadIn.length →
      answers .sealMessage s { status := .failed .inputTooLarge, outLen := 0, dataOut := [] })

/-- R202, R238, R239: the entry checks of `OPEN`, each where the ones before it pass; the ciphertext part of an input
shorter than a tag counts as empty. -/
def Obligations.OpenFailuresInOrder : Prop :=
  ∀ s : State,
    (s.ctx.ctxValid = false →
      answers .openMessage s { status := .failed .noContext, outLen := 0, dataOut := [] }) ∧
    (s.ctx.ctxValid = true → s.ports.nonceIn.length ≠ 12 →
      answers .openMessage s { status := .failed .unsupportedNonceLength, outLen := 0, dataOut := [] }) ∧
    (s.ctx.ctxValid = true → s.ports.nonceIn.length = 12 →
      2 ^ 36 - 32 < s.ports.dataIn.length - 16 ∨ 2 ^ 61 - 1 < s.ports.aadIn.length →
      answers .openMessage s { status := .failed .inputTooLarge, outLen := 0, dataOut := [] }) ∧
    (s.ctx.ctxValid = true → s.ports.nonceIn.length = 12 → s.ports.aadIn.length ≤ 2 ^ 61 - 1 →
      s.ports.dataIn.length < 16 →
      answers .openMessage s { status := .failed .authenticationFailure, outLen := 0, dataOut := [] })

/-- R206: with a valid context, a 12-byte nonce and lengths within the bounds, `OPEN` on a ciphertext followed by its
expected tag answers the ciphertext XOR the keystream, and changes nothing. -/
def Obligations.OpenAnswersPlaintextOnMatchingTag : Prop :=
  ∀ (s : State) (ct : List Byte), s.ctx.ctxValid = true → s.ports.nonceIn.length = 12 → ct.length ≤ 2 ^ 36 - 32 →
    s.ports.aadIn.length ≤ 2 ^ 61 - 1 →
    s.ports.dataIn = ct ++
      (expectedTag s.params.mulStrategy s.ctx s.ports.nonceIn s.ports.aadIn ct).toList →
      answers .openMessage s
        { status := .ok
          outLen := BitVec.ofNat 64 ct.length
          dataOut := cipherBlocks s.ctx (makeICB s.ports.nonceIn) ct }

/-- R206, R239: `OPEN` on a ciphertext followed by any sixteen bytes other than its expected tag answers
`AuthenticationFailure` with no data, and changes nothing. -/
def Obligations.OpenRejectsAnyOtherTag : Prop :=
  ∀ (s : State) (ct : List Byte) (tag : Block), s.ctx.ctxValid = true → s.ports.nonceIn.length = 12 →
    ct.length ≤ 2 ^ 36 - 32 → s.ports.aadIn.length ≤ 2 ^ 61 - 1 → s.ports.dataIn = ct ++ tag.toList →
    tag ≠ expectedTag s.params.mulStrategy s.ctx s.ports.nonceIn s.ports.aadIn ct →
      answers .openMessage s { status := .failed .authenticationFailure, outLen := 0, dataOut := [] }

/-- R210 (a) (derived by the spec from R204 to R206 and R192): `OPEN` of what `SEAL` answered, with the same nonce and
AAD, answers the plaintext that was sealed. -/
def Obligations.OpenReturnsWhatWasSealed : Prop :=
  ∀ (s t : State) (r : Response), exec .sealMessage s = .next t → t.response = some r → r.status = .ok →
    answers .openMessage { s with ports := { s.ports with dataIn := r.dataOut } }
      { status := .ok, outLen := BitVec.ofNat 64 s.ports.dataIn.length, dataOut := s.ports.dataIn }

/-- R210 (b), tag (derived by the spec): what `SEAL` answered with any of its last sixteen bytes changed, in any way,
is rejected. -/
def Obligations.OpenRejectsAlteredTag : Prop :=
  ∀ (s t : State) (r : Response) (forged : List Byte),
    exec .sealMessage s = .next t → t.response = some r → r.status = .ok →
    forged.length = r.dataOut.length → forged.take s.ports.dataIn.length = r.dataOut.take s.ports.dataIn.length →
    forged ≠ r.dataOut →
      answers .openMessage { s with ports := { s.ports with dataIn := forged } }
        { status := .failed .authenticationFailure, outLen := 0, dataOut := [] }

/-- R210 (b), ciphertext and AAD (derived by the spec): what `SEAL` answered with one bit of the ciphertext flipped,
or opened with one bit of the AAD flipped, is rejected. The two premises on the context: its strategy multiplies by
its `H` (as in every consistent context), and only 0 times `H` is 0 (in a field this is the hypothesis `H ≠ 0` of R210
and 93 U7). -/
def Obligations.OpenRejectsFlippedBit : Prop :=
  ∀ (s t : State) (r : Response) (j b : Nat),
    (∀ x, mulH s.params.mulStrategy s.ctx x = multiply x s.ctx.h) → (∀ x, multiply x s.ctx.h = 0 → x = 0) →
    exec .sealMessage s = .next t → t.response = some r → r.status = .ok → b < 8 →
      (j < s.ports.dataIn.length →
        answers .openMessage { s with ports := { s.ports with dataIn := flipBit r.dataOut j b } }
          { status := .failed .authenticationFailure, outLen := 0, dataOut := [] }) ∧
      (j < s.ports.aadIn.length →
        answers .openMessage
          { s with ports := { s.ports with dataIn := r.dataOut, aadIn := flipBit s.ports.aadIn j b } }
          { status := .failed .authenticationFailure, outLen := 0, dataOut := [] })

/-- R269: for every `OPEN` whose status is not `OK`, the response carries no data bytes. -/
def Obligations.OpenReleasesNothingOnFailure : Prop :=
  ∀ (s t : State) (r : Response), exec .openMessage s = .next t → t.response = some r → r.status ≠ .ok →
    r.outLen = 0 ∧ r.dataOut = []

/-- R204, R65: the tag is one GHASH, from zero, of the padded AAD, the padded ciphertext and the two 64-bit big-endian
bit lengths, XOR the mask. -/
def Obligations.TagIsOneGhashOverPaddedParts : Prop :=
  ∀ (strategy : MulStrategy) (c : Context) (eky0 : GF128) (aad ct : List Byte),
    computeTag strategy c eky0 aad ct =
      blockOfElement (ghash strategy c
        (pad16 aad ++ pad16 ct ++
          (bytesBe (BitVec.ofNat 64 (8 * aad.length)) 8 ++ bytesBe (BitVec.ofNat 64 (8 * ct.length)) 8)) 0 ^^^ eky0)

/-- R209: `ctEqual(a, b)` is true exactly when `a = b`. -/
def Obligations.CtEqualDecidesEquality : Prop :=
  ∀ a b : Block, ctEqual a b = true ↔ a = b

/-- R207: `NONCESIZE` is, by default, the word `0x03` and answers the byte `0c` in every state, changing nothing. -/
def Obligations.NonceSizeAnswersTwelve : Prop :=
  decode CmdEncoding.default 0x03 = .ok .nonceSize ∧
    ∀ s : State, answers .nonceSize s { status := .ok, outLen := 1, dataOut := [0x0c] }

/-- R208: `OVERHEAD` is, by default, the word `0x04` and answers the byte `10` in every state, changing nothing. -/
def Obligations.OverheadAnswersSixteen : Prop :=
  decode CmdEncoding.default 0x04 = .ok .overhead ∧
    ∀ s : State, answers .overhead s { status := .ok, outLen := 1, dataOut := [0x10] }

/-- R235: the commands of the GHASH and GCTR components fail with `NoContext` where the flag they need is 0. -/
def Obligations.ComponentCommandsNeedTheirContext : Prop :=
  ∀ s : State,
    (s.ctx.ctxValid = false → answers .ghash s { status := .failed .noContext, outLen := 0, dataOut := [] }) ∧
    (s.ctx.ksValid = false → answers .cipherBlocks s { status := .failed .noContext, outLen := 0, dataOut := [] })
end

