-- ==== Sys2Proof/Laws/Encoding.lean ====
section
/-! SUPPORT. The small facts of the command words: every command is listed, an assignment is one-to-one, and a word is
its two fields (spec/30_encoding.md R80, R82). -/

namespace Sys2Proof

@[simp] theorem mem_allCommands (i : Instr) : i ∈ allCommands := by cases i <;> decide

/-- Under an assignment, commands with the same word are the same. -/
theorem encode_inj {e : CmdEncoding} (h : e.wellFormed = true) {i j : Instr} (hij : encode e i = encode e j) : i = j :=
  List.inj_on_of_nodup_map (of_decide_eq_true h) (mem_allCommands i) (mem_allCommands j) hij

@[simp] theorem cmdUnit_commandWord (c : Component) (fn : BitVec 4) :
    cmdUnit (commandWord c fn) = componentNumber c := by
  revert fn
  cases c <;> decide

@[simp] theorem cmdFn_commandWord (c : Component) (fn : BitVec 4) : cmdFn (commandWord c fn) = fn := by
  revert fn
  cases c <;> decide

end Sys2Proof
end

