-- ==== Sys2Proof/Laws/Entry.lean ====
section
/-! SUPPORT. When the entry checks of the commands pass, and what one step of the key schedule writes. -/

namespace Sys2Proof.Machine

/-- `SEAL` goes on exactly with a valid context, a 12-byte nonce and lengths within the bounds (R202). -/
theorem sealEntry_eq_none {s : State} :
    sealEntry s = none ↔
      s.ctx.ctxValid = true ∧ s.ports.nonceIn.length = nonceSize ∧ s.ports.dataIn.length ≤ maxPtBytes ∧
        s.ports.aadIn.length ≤ maxAadBytes := by
  unfold sealEntry
  cases s.ctx.ctxValid
  · simp
  · by_cases hn : s.ports.nonceIn.length = nonceSize
    · simp [hn]
    · simp [hn]

/-- `OPEN` goes on exactly with a valid context, a 12-byte nonce, an input that holds a tag, and lengths within the
bounds (R202). -/
theorem openEntry_eq_none {s : State} :
    openEntry s = none ↔
      s.ctx.ctxValid = true ∧ s.ports.nonceIn.length = nonceSize ∧ overhead ≤ s.ports.dataIn.length ∧
        s.ports.dataIn.length - overhead ≤ maxPtBytes ∧ s.ports.aadIn.length ≤ maxAadBytes := by
  unfold openEntry openClen
  cases s.ctx.ctxValid
  · simp
  · by_cases hn : s.ports.nonceIn.length = nonceSize
    · by_cases ho : overhead ≤ s.ports.dataIn.length
      · simp [hn, ho, Nat.not_lt.mpr ho]
      · simp only [hn, ho, Nat.lt_of_not_le ho]
        simp only [ne_eq, not_true, if_false, if_true, false_and, and_false, iff_false, reduceCtorEq]
        split <;> simp
    · simp [hn]

/-- The block commands go on exactly with a key schedule and 16 bytes (R134, R135). -/
theorem blockEntry_eq_none {s : State} :
    blockEntry s = none ↔ s.ctx.ksValid = true ∧ s.ports.dataIn.length = 16 := by
  unfold blockEntry
  cases s.ctx.ksValid
  · simp
  · by_cases hl : s.ports.dataIn.length = 16 <;> simp [hl]

theorem keyLengthLegal_iff {n : Nat} : keyLengthLegal n = true ↔ n = 16 ∨ n = 24 ∨ n = 32 := by
  simp [keyLengthLegal, or_assoc]

end Sys2Proof.Machine
end

