-- ==== Sys2Proof/Laws/Ops.lean ====
section
/-! SUPPORT. What each shared operation does, said once: the end of a command, the word file, byte order, buffers. -/

namespace Sys2Proof.Machine

/-! ### The end of a command -/

/-- A command that finishes answers its bytes and changes nothing else. -/
theorem finish_eq_next {data : List Byte} {s t : State} :
    finish data s = .next t ↔ t = s.withResponse (okResponse data) := by
  simp [finish, eq_comm]

/-- A command that fails answers the failure and changes nothing else (R236). -/
theorem raise_eq_next {f : Failure} {s t : State} :
    raise f s = .next t ↔ t = s.withResponse (failedResponse f) := by
  simp [raise, eq_comm]

theorem finish_ne_fault (data : List Byte) (s : State) (e : Fault) : finish data s ≠ .fault e := by simp [finish]
theorem finish_ne_refused (data : List Byte) (s : State) (e : Refusal) : finish data s ≠ .refused e := by
  simp [finish]
theorem raise_ne_fault (f : Failure) (s : State) (e : Fault) : raise f s ≠ .fault e := by simp [raise]
theorem raise_ne_refused (f : Failure) (s : State) (e : Refusal) : raise f s ≠ .refused e := by simp [raise]

@[simp] theorem okResponse_status (data : List Byte) : (okResponse data).status = .ok := rfl
@[simp] theorem okResponse_dataOut (data : List Byte) : (okResponse data).dataOut = data := rfl
@[simp] theorem okResponse_outLen (data : List Byte) : (okResponse data).outLen = outLenOf data.length := rfl
@[simp] theorem failedResponse_status (f : Failure) : (failedResponse f).status = .failed f := rfl
@[simp] theorem failedResponse_dataOut (f : Failure) : (failedResponse f).dataOut = [] := rfl
@[simp] theorem failedResponse_outLen (f : Failure) : (failedResponse f).outLen = 0 := rfl

/-- `OUT_LEN` counts the bytes where 64 bits can hold the count. -/
theorem outLenOf_of_lt {n : Nat} (h : n < 2 ^ 64) : outLenOf n = BitVec.ofNat 64 n := by
  rw [outLenOf, if_pos (by omega)]

/-! ### The word file -/

theorem readW_writeW_same {w : WordFile} {i : Nat} {v : Word} (h : i < 60) : readW (writeW w i v) i = v := by
  simp [readW, writeW, h]

theorem readW_writeW_other {w : WordFile} {i j : Nat} {v : Word} (h : i ≠ j) :
    readW (writeW w i v) j = readW w j := by
  by_cases hj : j < 60
  · simp [readW, writeW, hj, h]
  · simp [readW, hj]

theorem readW_of_le {w : WordFile} {i : Nat} (h : 60 ≤ i) : readW w i = 0 := by
  simp [readW, Nat.not_lt.mpr h]

/-- Two word files with the same words are the same. -/
theorem wordFile_ext {w v : WordFile} (h : ∀ i, i < 60 → readW w i = readW v i) : w = v := by
  ext i hi
  have := h i hi
  simp only [readW, hi, dif_pos] at this
  rw [this]

/-! ### Byte order -/

@[simp] theorem bytesBe_length {w : Nat} (v : BitVec w) (n : Nat) : (bytesBe v n).length = n := by simp [bytesBe]

theorem beValue_append (w : Nat) (bs : List Byte) (b : Byte) :
    beValue w (bs ++ [b]) = (beValue w bs <<< 8) ||| b.setWidth w := by
  simp [beValue]

/-- Bit `k` of a big-endian value is bit `k % 8` of the byte `k / 8` places from the end. -/
theorem getLsbD_beValue (w : Nat) (bs : List Byte) (k : Nat) :
    (beValue w bs).getLsbD k = (decide (k < w) && (bs.reverse.getD (k / 8) 0).getLsbD (k % 8)) := by
  induction bs using List.reverseRecOn generalizing k with
  | nil => simp [beValue]
  | append_singleton bs b ih =>
    rw [beValue_append]
    by_cases hk : k < 8
    · have h0 : k / 8 = 0 := by omega
      have hm : k % 8 = k := by omega
      simp [hk, h0, hm]
    · obtain ⟨j, rfl⟩ : ∃ j, k = j + 8 := ⟨k - 8, by omega⟩
      have hd : (j + 8) / 8 = j / 8 + 1 := by omega
      have hm : (j + 8) % 8 = j % 8 := by omega
      have hb : b.getLsbD (j + 8) = false := BitVec.getLsbD_of_ge _ _ (by omega)
      by_cases hw : j + 8 < w
      · have hj : j < w := by omega
        have := ih j
        rw [BitVec.getLsbD_eq_getElem hj] at this
        simp [hd, hm, hw, this, hj]
      · simp [hw]

/-- Byte `k` of a block is bits `8*(15-k)+7 : 8*(15-k)` of its element (R63). -/
theorem getLsbD_elementOfBlock (b : Block) (k : Nat) :
    (elementOfBlock b).getLsbD k = (decide (k < 128) && (b.toList.reverse.getD (k / 8) 0).getLsbD (k % 8)) := by
  rw [elementOfBlock, getLsbD_beValue]

theorem getElem_blockOfElement (e : GF128) (k : Nat) (h : k < 16) :
    (blockOfElement e)[k] = e.extractLsb' (8 * (15 - k)) 8 := by
  simp [blockOfElement]

/-- Element to block and back (R57). -/
@[simp] theorem elementOfBlock_blockOfElement (e : GF128) : elementOfBlock (blockOfElement e) = e := by
  ext k hk
  rw [← BitVec.getLsbD_eq_getElem, ← BitVec.getLsbD_eq_getElem, getLsbD_elementOfBlock]
  have h16 : k / 8 < 16 := by omega
  have hlen : (blockOfElement e).toList.length = 16 := by simp
  rw [List.getD_eq_getElem?_getD, List.getElem?_reverse (by omega), hlen]
  have h15 : 16 - 1 - k / 8 < 16 := by omega
  simp only [hk, decide_true, Bool.true_and]
  rw [List.getElem?_eq_getElem (by omega), Option.getD_some, Vector.getElem_toList, getElem_blockOfElement _ _ h15,
    BitVec.getLsbD_extractLsb']
  have e1 : 8 * (15 - (16 - 1 - k / 8)) + k % 8 = k := by omega
  simp [e1, Nat.mod_lt]

/-- Block to element and back (R57). -/
@[simp] theorem blockOfElement_elementOfBlock (b : Block) : blockOfElement (elementOfBlock b) = b := by
  ext i hi j hj
  rw [← BitVec.getLsbD_eq_getElem, ← BitVec.getLsbD_eq_getElem, getElem_blockOfElement _ _ hi,
    BitVec.getLsbD_extractLsb', getLsbD_elementOfBlock]
  have hlen : b.toList.length = 16 := by simp
  have h1 : (8 * (15 - i) + j) / 8 = 15 - i := by omega
  have h2 : (8 * (15 - i) + j) % 8 = j := by omega
  have h3 : 8 * (15 - i) + j < 128 := by omega
  rw [h1, h2, List.getD_eq_getElem?_getD, List.getElem?_reverse (by omega), hlen]
  have h4 : 16 - 1 - (15 - i) = i := by omega
  rw [h4, List.getElem?_eq_getElem (by omega), Option.getD_some, Vector.getElem_toList]
  simp [hj, h3]

/-- Sixteen bytes as a block, and the block's bytes again. -/
theorem blockOfBytes_toList {bs : List Byte} (h : bs.length = 16) : (blockOfBytes bs).toList = bs := by
  apply List.ext_getElem
  · simp [h]
  · intro i h1 h2
    simp [blockOfBytes, h2]

@[simp] theorem blockOfBytes_of_toList (b : Block) : blockOfBytes b.toList = b := by
  ext i hi
  simp [blockOfBytes]

/-! ### Buffers -/

theorem memRead_length {buf : List Byte} {off n : Nat} (h : off + n ≤ buf.length) : (memRead buf off n).length = n := by
  simp only [memRead, List.length_take, List.length_drop]
  omega

@[simp] theorem memRead_all (buf : List Byte) : memRead buf 0 buf.length = buf := by simp [memRead]

/-- A first write is the output. -/
@[simp] theorem memWrite_nil (v : List Byte) : memWrite [] 0 v = v := by simp [memWrite]

/-- A write where the output ends appends (R53). -/
@[simp] theorem memWrite_end (out v : List Byte) : memWrite out out.length v = out ++ v := by simp [memWrite]

/-- A read of what has just been written gives it back. -/
theorem memRead_memWrite_same {out v : List Byte} {off : Nat} (h : off ≤ out.length) :
    memRead (memWrite out off v) off v.length = v := by
  have : (out.take off).length = off := by simp [h]
  simp only [memRead, memWrite, List.append_assoc]
  rw [List.drop_append_of_le_length (by omega), List.drop_of_length_le (by omega)]
  simp

/-- A write leaves every other byte alone. -/
theorem memWrite_other {out v : List Byte} {off j : Nat} (hoff : off + v.length ≤ out.length)
    (hj : j < off ∨ off + v.length ≤ j) : (memWrite out off v)[j]? = out[j]? := by
  have hl : (out.take off).length = off := by simp; omega
  unfold memWrite
  rcases hj with hj | hj
  · rw [List.append_assoc, List.getElem?_append_left (by omega), List.getElem?_take, if_pos hj]
  · rw [List.getElem?_append_right (by simp; omega), List.getElem?_drop]
    simp only [List.length_append, hl]
    congr 1
    omega

/-- Byte `j` of a padded read: the data's byte, or 0 past its end (R54). -/
theorem memReadPad_get (buf : List Byte) (off : Nat) (j : Nat) (hj : j < 16) :
    (memReadPad buf off)[j] = buf.getD (off + j) 0 := by
  simp only [memReadPad, blockOfBytes, memRead, Vector.getElem_ofFn, List.getD_eq_getElem?_getD]
  by_cases h : off + j < buf.length
  · rw [List.getElem?_append_left (by simp; omega), List.getElem?_take, if_pos (by omega), List.getElem?_drop]
  · rw [List.getElem?_append_right (by simp; omega), List.getElem?_eq_none (by omega : buf.length ≤ off + j)]
    simp [List.getElem?_replicate]
    split <;> rfl

/-! ### Blocks of a buffer -/

theorem le_nblocks_mul (n : Nat) : n ≤ 16 * nblocks n := by unfold nblocks; omega

theorem nblocks_mul_lt (n : Nat) : 16 * nblocks n < n + 16 := by unfold nblocks; omega

@[simp] theorem nblocks_zero : nblocks 0 = 0 := rfl

end Sys2Proof.Machine
end

