-- ==== Sys2Proof/Laws/PerInstr.lean ====
section
/-! SUPPORT. Statements for all commands, one lemma per constructor. -/

namespace Sys2Proof.Laws.UnitField

/-- In the table of R82, the field `CMD[7:4]` of a command's word is the number of its component
(spec/30_encoding.md R80). -/
def Statement (i : Instr) : Prop := cmdUnit (encode CmdEncoding.default i) = componentNumber i.component

theorem newAead : Statement .newAead := by unfold Statement; decide
theorem sealMessage : Statement .sealMessage := by unfold Statement; decide
theorem openMessage : Statement .openMessage := by unfold Statement; decide
theorem nonceSize : Statement .nonceSize := by unfold Statement; decide
theorem overhead : Statement .overhead := by unfold Statement; decide
theorem expandKey : Statement .expandKey := by unfold Statement; decide
theorem encryptBlock : Statement .encryptBlock := by unfold Statement; decide
theorem decryptBlock : Statement .decryptBlock := by unfold Statement; decide
theorem gfmul : Statement .gfmul := by unfold Statement; decide
theorem ghash : Statement .ghash := by unfold Statement; decide
theorem cipherBlocks : Statement .cipherBlocks := by unfold Statement; decide

end Sys2Proof.Laws.UnitField
end

