-- ==== Sys2Proof/Laws/State.lean ====
section
/-! SUPPORT. The fields of a state after each named update, one lemma per field per update. -/

namespace Sys2Proof.Machine

/-! ### The response of a command -/

@[simp] theorem State.withResponse_ctx (s : State) (r : Response) : (s.withResponse r).ctx = s.ctx := rfl
@[simp] theorem State.withResponse_params (s : State) (r : Response) : (s.withResponse r).params = s.params := rfl
@[simp] theorem State.withResponse_ports (s : State) (r : Response) : (s.withResponse r).ports = s.ports := rfl
@[simp] theorem State.withResponse_response (s : State) (r : Response) : (s.withResponse r).response = some r := rfl
@[simp] theorem State.withResponse_host (s : State) (r : Response) : (s.withResponse r).host = s.host := rfl

/-! ### Another context slot -/

@[simp] theorem State.withCtx_ctx (s : State) (c : Context) : (s.withCtx c).ctx = c := rfl
@[simp] theorem State.withCtx_params (s : State) (c : Context) : (s.withCtx c).params = s.params := rfl
@[simp] theorem State.withCtx_ports (s : State) (c : Context) : (s.withCtx c).ports = s.ports := rfl
@[simp] theorem State.withCtx_response (s : State) (c : Context) : (s.withCtx c).response = s.response := rfl
@[simp] theorem State.withCtx_host (s : State) (c : Context) : (s.withCtx c).host = s.host := rfl

/-! ### Accepting a command -/

@[simp] theorem accept_ctx (r : Issue) (rest : List HostMove) (s : State) : (accept r rest s).ctx = s.ctx := rfl
@[simp] theorem accept_params (r : Issue) (rest : List HostMove) (s : State) :
    (accept r rest s).params = s.params := rfl
@[simp] theorem accept_ports (r : Issue) (rest : List HostMove) (s : State) :
    (accept r rest s).ports = r.operands := rfl
@[simp] theorem accept_response (r : Issue) (rest : List HostMove) (s : State) :
    (accept r rest s).response = none := rfl
@[simp] theorem accept_host (r : Issue) (rest : List HostMove) (s : State) : (accept r rest s).host = rest := rfl

/-! ### The reset event -/

@[simp] theorem takeReset_ctx (rest : List HostMove) (s : State) : (takeReset rest s).ctx = Context.reset := rfl
@[simp] theorem takeReset_params (rest : List HostMove) (s : State) : (takeReset rest s).params = s.params := rfl
@[simp] theorem takeReset_ports (rest : List HostMove) (s : State) : (takeReset rest s).ports = s.ports := rfl
@[simp] theorem takeReset_response (rest : List HostMove) (s : State) : (takeReset rest s).response = none := rfl
@[simp] theorem takeReset_host (rest : List HostMove) (s : State) : (takeReset rest s).host = rest := rfl

/-! ### A new key schedule -/

@[simp] theorem Context.withSchedule_ksValid (c : Context) (key : List Byte) :
    (c.withSchedule key).ksValid = true := rfl
@[simp] theorem Context.withSchedule_ctxValid (c : Context) (key : List Byte) :
    (c.withSchedule key).ctxValid = c.ctxValid := rfl
@[simp] theorem Context.withSchedule_nk (c : Context) (key : List Byte) :
    (c.withSchedule key).nk = BitVec.ofNat 4 (nkOf key.length) := rfl
@[simp] theorem Context.withSchedule_nr (c : Context) (key : List Byte) :
    (c.withSchedule key).nr = nrOf key.length := rfl
@[simp] theorem Context.withSchedule_w (c : Context) (key : List Byte) :
    (c.withSchedule key).w = expandKey key c.w := rfl
@[simp] theorem Context.withSchedule_h (c : Context) (key : List Byte) : (c.withSchedule key).h = c.h := rfl
@[simp] theorem Context.withSchedule_m (c : Context) (key : List Byte) : (c.withSchedule key).m = c.m := rfl

/-! ### A new hash subkey -/

@[simp] theorem Context.withHash_ksValid (c : Context) (strategy : MulStrategy) :
    (c.withHash strategy).ksValid = c.ksValid := rfl
@[simp] theorem Context.withHash_ctxValid (c : Context) (strategy : MulStrategy) :
    (c.withHash strategy).ctxValid = true := rfl
@[simp] theorem Context.withHash_nk (c : Context) (strategy : MulStrategy) : (c.withHash strategy).nk = c.nk := rfl
@[simp] theorem Context.withHash_nr (c : Context) (strategy : MulStrategy) : (c.withHash strategy).nr = c.nr := rfl
@[simp] theorem Context.withHash_w (c : Context) (strategy : MulStrategy) : (c.withHash strategy).w = c.w := rfl
@[simp] theorem Context.withHash_h (c : Context) (strategy : MulStrategy) :
    (c.withHash strategy).h = hashSubkey c := by
  simp only [Context.withHash]
theorem Context.withHash_m_table (c : Context) {strategy : MulStrategy} (h : strategy = .table) :
    (c.withHash strategy).m = buildTable (hashSubkey c) := by
  simp only [Context.withHash, if_pos h]
theorem Context.withHash_m_other (c : Context) {strategy : MulStrategy} (h : strategy ≠ .table) :
    (c.withHash strategy).m = c.m := by
  simp only [Context.withHash, if_neg h]

/-! ### An engine after reset -/

@[simp] theorem State.resetWith_ctx (p : Params) : (State.resetWith p).ctx = Context.reset := rfl
@[simp] theorem State.resetWith_params (p : Params) : (State.resetWith p).params = p := rfl
@[simp] theorem State.resetWith_ports (p : Params) : (State.resetWith p).ports = emptyPorts := rfl
@[simp] theorem State.resetWith_response (p : Params) : (State.resetWith p).response = none := rfl
@[simp] theorem State.resetWith_host (p : Params) : (State.resetWith p).host = [] := rfl

/-! ### The host's next command -/

@[simp] theorem State.withFetchWord_ctx (s : State) (nbits w : Nat) : (s.withFetchWord nbits w).ctx = s.ctx := rfl
@[simp] theorem State.withFetchWord_params (s : State) (nbits w : Nat) :
    (s.withFetchWord nbits w).params = s.params := rfl
@[simp] theorem State.withFetchWord_ports (s : State) (nbits w : Nat) :
    (s.withFetchWord nbits w).ports = s.ports := rfl
@[simp] theorem State.withFetchWord_response (s : State) (nbits w : Nat) :
    (s.withFetchWord nbits w).response = s.response := rfl
@[simp] theorem State.withFetchWord_host (s : State) (nbits w : Nat) :
    (s.withFetchWord nbits w).host
      = .issue { cmd := BitVec.ofNat 8 (w % 2 ^ nbits), operands := s.ports } :: s.host := rfl

end Sys2Proof.Machine
end

