-- ==== Sys2Proof/Laws/Step.lean ====
section
/-! SUPPORT. What a step can do, said once: the meanings end in a next state, and a step is one move of the host. -/

namespace Sys2Proof.Machine

/-- Every meaning is a context slot and a response: the slot is the old one unless a constructing command succeeded. -/
theorem exec_cases (i : Instr) (s : State) :
    (∃ f, exec i s = raise f s) ∨ (∃ data, exec i s = finish data s) ∨
      (i = .expandKey ∧ keyLengthLegal s.ports.keyIn.length = true ∧
        exec i s = finish (writeWords (expandKey s.ports.keyIn s.ctx.w) (scheduleLength (nrOf s.ports.keyIn.length)))
          (s.withCtx { s.ctx.withSchedule s.ports.keyIn with ctxValid := false })) ∨
      (i = .newAead ∧ keyLengthLegal s.ports.keyIn.length = true ∧
        exec i s = finish []
          (s.withCtx ((s.ctx.withSchedule s.ports.keyIn).withHash s.params.mulStrategy))) := by
  cases i with
  | newAead =>
    by_cases h : keyLengthLegal s.ports.keyIn.length = false
    · exact .inl ⟨.invalidKeyLength, by simp only [exec, execNewAead, if_pos h]⟩
    · exact .inr (.inr (.inr ⟨rfl, by simpa using h, by simp only [exec, execNewAead, if_neg h]⟩))
  | expandKey =>
    by_cases h : keyLengthLegal s.ports.keyIn.length = false
    · exact .inl ⟨.invalidKeyLength, by simp only [exec, execExpandKey, if_pos h]⟩
    · exact .inr (.inr (.inl ⟨rfl, by simpa using h, by
        simp only [exec, execExpandKey, if_neg h, Context.withSchedule]⟩))
  | sealMessage =>
    simp only [exec, execSealMessage]
    split
    · exact .inl ⟨_, rfl⟩
    · exact .inr (.inl ⟨_, rfl⟩)
  | openMessage =>
    simp only [exec, execOpenMessage]
    split
    · exact .inl ⟨_, rfl⟩
    · split
      · exact .inl ⟨_, rfl⟩
      · exact .inr (.inl ⟨_, rfl⟩)
  | nonceSize => exact .inr (.inl ⟨_, rfl⟩)
  | overhead => exact .inr (.inl ⟨_, rfl⟩)
  | encryptBlock =>
    simp only [exec, execEncryptBlock]
    split
    · exact .inl ⟨_, rfl⟩
    · exact .inr (.inl ⟨_, rfl⟩)
  | decryptBlock =>
    simp only [exec, execDecryptBlock]
    split
    · exact .inl ⟨_, rfl⟩
    · split
      · exact .inl ⟨_, rfl⟩
      · exact .inr (.inl ⟨_, rfl⟩)
  | gfmul => exact .inr (.inl ⟨_, rfl⟩)
  | ghash =>
    simp only [exec, execGhash]
    split
    · exact .inl ⟨_, rfl⟩
    · exact .inr (.inl ⟨_, rfl⟩)
  | cipherBlocks =>
    simp only [exec, execCipherBlocks]
    split
    · exact .inl ⟨_, rfl⟩
    · exact .inr (.inl ⟨_, rfl⟩)

/-- A step that answers a next state made no move, took a reset, failed a reserved word, or ran a decoded command. -/
theorem step_cases {s t : State} (h : step s = .next t) :
    (s.host = [] ∧ t = s) ∨
      (∃ rest, s.host = .reset :: rest ∧ t = takeReset rest s) ∨
      (∃ r rest, s.host = .issue r :: rest ∧
        t = (accept r rest s).withResponse (failedResponse .illegalCommand)) ∨
      (∃ r rest i, s.host = .issue r :: rest ∧ decode s.params.cmdEncoding r.cmd = .ok i ∧
        exec i (accept r rest s) = .next t) := by
  unfold step at h
  split at h
  · rename_i hs
    simp only [idle, Host.Outcome.next.injEq] at h
    exact .inl ⟨hs, h.symm⟩
  · rename_i rest hs
    simp only [Host.Outcome.next.injEq] at h
    exact .inr (.inl ⟨rest, hs, h.symm⟩)
  · rename_i r rest hs
    unfold runCommand at h
    split at h
    · rename_i i hd
      exact .inr (.inr (.inr ⟨r, rest, i, hs, hd, h⟩))
    · exact .inr (.inr (.inl ⟨r, rest, hs, raise_eq_next.mp h⟩))

end Sys2Proof.Machine
end

