-- ==== Sys2Proof/Tests/Slice0.lean ====
section
/-! SUPPORT. Tests on fixed values, each expected value taken from spec/ (the place is named), and a witness for every
statement of the certificate that has hypotheses. -/

namespace Sys2Proof.Machine.Tests

/-! ### Helpers -/

/-- An engine with both options, Algorithm 1, and the given operands. -/
def withOps (o : Operands) : State :=
  { State.reset with params := { Params.default with mulStrategy := .serial, hasInvCipher := true }, ports := o }

/-- The context slot that a key schedule of `key` and the hash subkey `h` make, without evaluating `H`. -/
def slot (key : List Byte) (h : GF128) : Context :=
  { Context.reset.withSchedule key with ctxValid := true, h := h }

/-- What the outcome says at the boundary. -/
def answerOf : Host.Outcome State Fault Refusal → Option Response
  | .next t => t.response
  | .fault _ => none
  | .refused _ => none

/-- The code of the outcome's status, as the host sees it. -/
def statusOf : Host.Outcome State Fault Refusal → Option Byte
  | .next t => t.statusByte
  | .fault _ => none
  | .refused _ => none

/-- Status code and data of the outcome's answer, as one byte sequence. -/
def bytesOf (o : Host.Outcome State Fault Refusal) : List Byte :=
  (statusOf o).toList ++ ((answerOf o).map Response.dataOut).getD []

/-- The bytes of a number written in hex. -/
def hex (n v : Nat) : List Byte := bytesBe (BitVec.ofNat (8 * n) v) n

def key128 : List Byte := hex 16 0x000102030405060708090a0b0c0d0e0f
def keyV3 : List Byte := hex 16 0xfeffe9928665731c6d6a8f9467308308
def subkeyV3 : GF128 := 0xb83b533708bf535d0aa6e52980d53b78

/-! ### Decoding: words written bit by bit from 30_encoding.md R80 and R82 -/

theorem test_decode_newAead : decode CmdEncoding.default 0b00000000 = .ok .newAead := by decide
theorem test_decode_sealMessage : decode CmdEncoding.default 0b00000001 = .ok .sealMessage := by decide
theorem test_decode_openMessage : decode CmdEncoding.default 0b00000010 = .ok .openMessage := by decide
theorem test_decode_nonceSize : decode CmdEncoding.default 0b00000011 = .ok .nonceSize := by decide
theorem test_decode_overhead : decode CmdEncoding.default 0b00000100 = .ok .overhead := by decide
theorem test_decode_expandKey : decode CmdEncoding.default 0b00010000 = .ok .expandKey := by decide
theorem test_decode_encryptBlock : decode CmdEncoding.default 0b00010001 = .ok .encryptBlock := by decide
theorem test_decode_decryptBlock : decode CmdEncoding.default 0b00010010 = .ok .decryptBlock := by decide
theorem test_decode_gfmul : decode CmdEncoding.default 0b00100000 = .ok .gfmul := by decide
theorem test_decode_ghash : decode CmdEncoding.default 0b00110000 = .ok .ghash := by decide
theorem test_decode_cipherBlocks : decode CmdEncoding.default 0b01000000 = .ok .cipherBlocks := by decide
/-- The reserved words of 95_test_vectors.md section 9. -/
theorem test_decode_reserved :
    [0x05, 0x0f, 0x13, 0x21, 0x31, 0x41, 0x80, 0xff].all (fun w => (decodeTableWord 8 w).isNone) = true := by decide

/-- R8: on an engine that assigns `NONCESIZE` the word `0x77`, that word runs it and `0x03` is reserved. -/
theorem test_decode_other_assignment :
    decode { CmdEncoding.default with nonceSize := 0x77 } 0x77 = .ok .nonceSize ∧
      decode { CmdEncoding.default with nonceSize := 0x77 } 0x03 = .error (.reservedFunction 0x03) := by decide

/-! ### Well-formedness: a term that each check refuses -/

theorem test_wf_default_encodings :
    CmdEncoding.default.wellFormed = true ∧ StatusEncoding.default.wellFormed = true := by decide
theorem test_wf_two_commands_on_one_word :
    CmdEncoding.wellFormed { CmdEncoding.default with sealMessage := 0x02 } = false := by decide
theorem test_wf_two_statuses_on_one_code :
    StatusEncoding.wellFormed { StatusEncoding.default with noContext := 0x00 } = false := by decide

theorem test_wf_decryptBlock_absent :
    Instr.wellFormed Params.default .decryptBlock = false := by decide
theorem test_wf_key_of_17 : Operands.wellFormedFor { emptyPorts with keyIn := hex 17 0 } .newAead = false := by decide
theorem test_wf_expandKey_of_15 :
    Operands.wellFormedFor { emptyPorts with keyIn := hex 15 0 } .expandKey = false := by decide
theorem test_wf_block_of_15 :
    Operands.wellFormedFor { emptyPorts with dataIn := hex 15 0 } .encryptBlock = false := by decide
theorem test_wf_seal_nonce_of_13 :
    Operands.wellFormedFor { emptyPorts with nonceIn := hex 13 0 } .sealMessage = false := by decide
theorem test_wf_open_input_of_15 :
    Operands.wellFormedFor { emptyPorts with nonceIn := hex 12 0, dataIn := hex 15 0 } .openMessage = false := by decide

/-! ### Running from reset: 95_test_vectors.md P1 steps 1 and 2, P3 steps 1, 13 and 14 -/

theorem test_step_nonceSize : bytesOf (step (State.reset.withFetchWord 8 0x03)) = [0x00, 0x0c] := by decide +kernel
theorem test_step_overhead : bytesOf (step (State.reset.withFetchWord 8 0x04)) = [0x00, 0x10] := by decide +kernel
theorem test_step_seal_noContext : bytesOf (step (State.reset.withFetchWord 8 0x01)) = [0x80] := by decide +kernel
theorem test_step_reserved : bytesOf (step (State.reset.withFetchWord 8 0x05)) = [0x81] := by decide +kernel
theorem test_step_decrypt_absent : bytesOf (step (State.reset.withFetchWord 8 0x12)) = [0x81] := by decide +kernel

/-! ### Key schedule: 40_key_schedule.md, 96_test_vectors_components.md section 2 -/

theorem test_rotWord : rotWord 0x01020304 = 0x02030401 := by decide
theorem test_subWord : subWord 0xcf4f3c09 = 0x8a84eb01 := by decide +kernel
theorem test_rcon : (List.range' 1 10).map rcon =
    [0x01000000, 0x02000000, 0x04000000, 0x08000000, 0x10000000, 0x20000000, 0x40000000, 0x80000000, 0x1b000000,
      0x36000000] := by decide +kernel
/-- The source's vector V2, and the first derived word. -/
theorem test_expand_128 :
    let w := expandKey (hex 16 0x2b7e151628aed2a6abf7158809cf4f3c) Context.reset.w
    readW w 4 = 0xa0fafe17 ∧ readW w 43 = 0xb6630ca6 ∧ readW w 44 = 0 := by decide +kernel
theorem test_expand_192 :
    readW (expandKey (hex 24 0x8e73b0f7da0e6452c810f32b809079e562f8ead2522c6b7b) Context.reset.w) 51 = 0x01002202 := by
  decide +kernel
theorem test_expand_256 :
    let w := expandKey (hex 32 0x603deb1015ca71be2b73aef0857d77811f352c073b6108d72d9810a30914dff4) Context.reset.w
    readW w 12 = 0xa8b09c1a ∧ readW w 59 = 0x706c631e := by decide +kernel
theorem test_expandKey_length_31 :
    bytesOf (exec .expandKey (withOps { emptyPorts with keyIn := hex 31 0 })) = [0x01] := by decide +kernel
theorem test_newAead_length_0 : bytesOf (exec .newAead (withOps emptyPorts)) = [0x01] := by decide +kernel

/-! ### AES round engine: 41_aes_round_engine.md, 96_test_vectors_components.md section 3 -/

theorem test_xtime : xtime 0x80 = 0x1b ∧ xtime 0xff = 0xe5 ∧ xtime 0x57 = 0xae := by decide
theorem test_mulMod : mulMod 0x57 0x83 = 0xc1 ∧ mulMod 0x53 0xca = 0x01 := by decide
theorem test_shiftRows :
    (storeState (shiftRows (loadState (blockOfBytes key128)))).toList = hex 16 0x00050a0f04090e03080d02070c01060b := by
  decide +kernel
theorem test_invShiftRows :
    (storeState (invShiftRows (loadState (blockOfBytes key128)))).toList
      = hex 16 0x000d0a0704010e0b0805020f0c090603 := by decide +kernel
theorem test_mixColumns :
    (storeState (mixColumns (loadState (blockOfBytes (hex 16 0xdb135345f20a225c01010101c6c6c6c6))))).toList
      = hex 16 0x8e4da1bc9fdc589d01010101c6c6c6c6 := by decide +kernel
theorem test_invMixColumns :
    (storeState (invMixColumns (loadState (blockOfBytes (hex 16 0x8e4da1bc9fdc589d01010101c6c6c6c6))))).toList
      = hex 16 0xdb135345f20a225c01010101c6c6c6c6 := by decide +kernel
/-- The source's vector V1. -/
theorem test_encryptBlock :
    bytesOf (exec .encryptBlock { withOps { emptyPorts with dataIn := hex 16 0x00112233445566778899aabbccddeeff } with
      ctx := slot key128 0 }) = 0x00 :: hex 16 0x69c4e0d86a7b0430d8cdb78070b4c55a := by decide +kernel
theorem test_decryptBlock :
    bytesOf (exec .decryptBlock { withOps { emptyPorts with dataIn := hex 16 0x69c4e0d86a7b0430d8cdb78070b4c55a } with
      ctx := slot key128 0 }) = 0x00 :: hex 16 0x00112233445566778899aabbccddeeff := by decide +kernel

/-! ### GF(2^128): 42_gf128_multiplier.md, 96_test_vectors_components.md sections 4 and 5 -/

theorem test_multiply : multiply 0x42831ec2217774244b7221b784d0d49c subkeyV3 = 0x59ed3f2bb1a0aaa07c9f56c6a504647b := by
  decide +kernel
theorem test_multiply_square : multiply 1 1 = 0xe6080000000000000000000000000003 := by decide +kernel
theorem test_table_entries :
    readM (buildTable subkeyV3) 0 0x80 = subkeyV3 ∧
      readM (buildTable subkeyV3) 15 0x01 = 0xfd70b18e41bca104ee92c67ae71684d8 ∧
      readM (buildTable subkeyV3) 3 0x03 = 0x033b8d69b09beab23383ebce3fd65ef5 := by decide +kernel
theorem test_clmul64 :
    clmul64 0xdeadbeefcafebabe 0x0123456789abcdef = 0x00c42fde8b6b5592f099825fe2af618a := by decide +kernel
theorem test_clmul64ByClasses :
    clmul64ByClasses 0xffffffffffffffff 0xffffffffffffffff = 0x55555555555555555555555555555555 := by decide +kernel
theorem test_multiplyClmul :
    multiplyClmul 0x42831ec2217774244b7221b784d0d49c subkeyV3 = 0x59ed3f2bb1a0aaa07c9f56c6a504647b := by
  decide +kernel
theorem test_gfmul :
    bytesOf (exec .gfmul (withOps { emptyPorts with
      xIn := blockOfBytes (hex 16 0x40000000000000000000000000000000), yIn := blockOfBytes (hex 16 1) }))
      = 0x00 :: hex 16 0xe1000000000000000000000000000000 := by decide +kernel

/-! ### GHASH: 43_ghash.md R181, R182 -/

theorem test_ghash :
    bytesOf (exec .ghash { withOps { emptyPorts with
        dataIn := hex 20 0xfeedfacedeadbeeffeedfacedeadbeefabaddad2 } with
      ctx := { Context.reset with ksValid := true, ctxValid := true, h := subkeyV3 } })
      = 0x00 :: hex 16 0xcd47221ccef0554ee4bb044c88150352 := by decide +kernel
theorem test_ghash_empty :
    bytesOf (exec .ghash { withOps { emptyPorts with xIn := blockOfBytes (hex 16 7) } with
      ctx := { Context.reset with ksValid := true, ctxValid := true, h := subkeyV3 } }) = 0x00 :: hex 16 7 := by
  decide +kernel

/-! ### GCTR: 44_gctr.md, 96_test_vectors_components.md section 7 -/

theorem test_inc32 : inc32 0xcafebabefacedbaddecaf88800000001 0xffffffff = 0xcafebabefacedbaddecaf88800000000 := by
  decide +kernel
theorem test_makeICB : makeICB (hex 12 0xcafebabefacedbaddecaf888) = 0xcafebabefacedbaddecaf88800000001 := by
  decide +kernel
theorem test_cipherBlocks :
    bytesOf (exec .cipherBlocks { withOps { emptyPorts with
        dataIn := [0xff], xIn := blockOfBytes (hex 16 0xcafebabefacedbaddecaf88800000001) } with
      ctx := slot keyV3 0 }) = [0x00, 0x64] := by decide +kernel

/-! ### AEAD: 95_test_vectors.md section 8 -/

/-- The row '1-byte plaintext'. -/
theorem test_seal :
    bytesOf (exec .sealMessage { withOps { emptyPorts with
        nonceIn := hex 12 0xcafebabefacedbaddecaf888, dataIn := [0x00] } with ctx := slot keyV3 subkeyV3 })
      = 0x00 :: 0x9b :: hex 16 0xeb3f004721eec1cf071fbf444bdf4609 := by decide +kernel
/-- The row 'AAD only' opened, whose ciphertext is empty. -/
theorem test_open :
    bytesOf (exec .openMessage { withOps { emptyPorts with
        nonceIn := hex 12 0xcafebabefacedbaddecaf888, dataIn := hex 16 0x346434fd51d5cd0c5887ec63e39b907a
        aadIn := hex 20 0xfeedfacedeadbeeffeedfacedeadbeefabaddad2 } with ctx := slot keyV3 subkeyV3 })
      = [0x00] := by decide +kernel
/-- Section 9: `OPEN` with an 11-byte nonce and an empty input. -/
theorem test_open_nonce_before_length :
    bytesOf (exec .openMessage { withOps { emptyPorts with nonceIn := hex 11 0 } with ctx := slot keyV3 subkeyV3 })
      = [0x03] := by decide +kernel
/-- Section 9: `OPEN` with 15 bytes. -/
theorem test_open_short :
    bytesOf (exec .openMessage { withOps { emptyPorts with nonceIn := hex 12 0, dataIn := hex 15 0 } with
      ctx := slot keyV3 subkeyV3 }) = [0x04] := by decide +kernel
theorem test_lengthBlock : lengthBlock 20 60 = 0x00000000000000a000000000000001e0 := by decide +kernel

end Sys2Proof.Machine.Tests
end

