-- ==== Sys2Proof/Tests/Witnesses.lean ====
section
/-! SUPPORT. For every statement of the certificate that has hypotheses: a concrete state and operands that meet all of
them together, and for a statement of several clauses a witness of each clause. -/

namespace Sys2Proof.Machine.Tests

/-- An engine with a valid context whose `H` is the field's one. -/
def ready (o : Operands) : State :=
  { withOps o with ctx := { Context.reset with ksValid := true, ctxValid := true, nk := 4, nr := 10, h := gfOne } }

/-- The parameters with the inverse cipher and another multiply strategy. -/
def under (strategy : MulStrategy) : Params := { Params.default with mulStrategy := strategy, hasInvCipher := true }

/-- The issue of a command word with empty operand spaces. -/
def issueOf (cmd : Byte) : Issue := { cmd := cmd, operands := emptyPorts }

/-- A 12-byte nonce and nothing else. -/
def noncePorts : Operands := { emptyPorts with nonceIn := hex 12 0 }

/-- A context slot made by `NEWAEAD` from the all-zero 16-byte key. -/
def zeroKeySlot (strategy : MulStrategy) : Context :=
  ((Context.reset.withSchedule (hex 16 0)).withHash strategy)

theorem zeroKey_schedule :
    ∀ i, 4 ≤ i → i < 44 →
      readW (expandKey (hex 16 0) Context.reset.w) i
        = readW (expandKey (hex 16 0) Context.reset.w) (i - 4)
          ^^^ scheduleTemp 4 (expandKey (hex 16 0) Context.reset.w) i := by decide +kernel

theorem hashSubkey_withHash (c : Context) (strategy : MulStrategy) :
    hashSubkey (c.withHash strategy) = hashSubkey c := by
  simp only [hashSubkey, encryptBlock, Context.withHash]

/-- A consistent slot with both flags set: `StepKeepsContextConsistent`, `GhashAnswersHornerFold`. -/
theorem zeroKeySlot_consistent (strategy : MulStrategy) (h : strategy ≠ .table) :
    (zeroKeySlot strategy).consistent strategy := by
  refine ⟨fun _ => ⟨.inl ⟨rfl, rfl⟩, fun i hi hn => ?_⟩, fun _ => ⟨rfl, ?_, fun ht => absurd ht h⟩⟩
  · exact zeroKey_schedule i hi hn
  · simp only [zeroKeySlot, hashSubkey_withHash]
    simp only [Context.withHash]

theorem witness_StepKeepsContextConsistent :
    ∃ s t : State, s.consistent ∧ s.ctx.ctxValid = true ∧ step s = .next t :=
  ⟨{ State.reset with params := under .serial, ctx := zeroKeySlot .serial },
    _, zeroKeySlot_consistent _ (by decide), rfl, rfl⟩

theorem witness_StepRunsDecodedCommand :
    ∃ (s : State) (r : Issue) (rest : List HostMove) (i : Instr),
      s.host = .issue r :: rest ∧ decode s.params.cmdEncoding r.cmd = .ok i :=
  ⟨State.reset.withFetchWord 8 0x30, { cmd := 0x30, operands := emptyPorts }, [], .ghash, rfl, rfl⟩

theorem witness_ReservedWords_unlisted :
    ∃ (s : State) (r : Issue) (rest : List HostMove),
      s.host = .issue r :: rest ∧ ∀ i, r.cmd ≠ encode s.params.cmdEncoding i :=
  ⟨State.reset.withFetchWord 8 0x05, { cmd := 0x05, operands := emptyPorts }, [], rfl, by intro i; cases i <;> decide⟩

theorem witness_ReservedWords_inverse :
    ∃ (s : State) (r : Issue) (rest : List HostMove),
      s.host = .issue r :: rest ∧ decode s.params.cmdEncoding r.cmd = .ok .decryptBlock ∧
        s.params.hasInvCipher = false :=
  ⟨State.reset.withFetchWord 8 0x12, { cmd := 0x12, operands := emptyPorts }, [], rfl, rfl, rfl⟩

theorem witness_DecodeAndEncode : ∃ e : CmdEncoding, e.wellFormed = true ∧ e ≠ CmdEncoding.default :=
  ⟨{ CmdEncoding.default with nonceSize := 0x77 }, by decide, by decide⟩

theorem witness_ResetMove : ∃ (s : State) (rest : List HostMove), s.host = .reset :: rest :=
  ⟨{ State.reset with host := [.reset] }, [], rfl⟩

theorem witness_IdleEngine : ∃ s : State, s.host = [] := ⟨State.reset, rfl⟩

theorem witness_FailedCommand :
    ∃ (i : Instr) (s t : State) (r : Response) (f : Failure),
      exec i s = .next t ∧ t.response = some r ∧ r.status = .failed f :=
  ⟨.sealMessage, State.reset, _, _, .noContext, rfl, rfl, rfl⟩

theorem witness_OnlyConstruction :
    ∃ (i : Instr) (s t : State), i ≠ .newAead ∧ i ≠ .expandKey ∧ exec i s = .next t :=
  ⟨.sealMessage, ready noncePorts, _, by decide, by decide, rfl⟩

theorem witness_NoCommandWritesItsInputs : ∃ (i : Instr) (s t : State), exec i s = .next t :=
  ⟨.gfmul, State.reset, _, rfl⟩

theorem witness_CommandsSucceed :
    ∃ (i : Instr) (s : State), i.wellFormed s.params = true ∧ s.ports.wellFormedFor i = true ∧ s.ctx.readyFor i ∧
      i ≠ .openMessage :=
  ⟨.sealMessage, ready noncePorts, by decide, by decide, rfl, by decide⟩

theorem witness_AnswerDepends :
    ∃ (i : Instr) (s u t : State), s.ctx = u.ctx ∧ s.params = u.params ∧ s.ports = u.ports ∧ s ≠ u ∧
      exec i s = .next t :=
  ⟨.gfmul, State.reset, { State.reset with host := [.reset] }, _, rfl, rfl, rfl,
    fun h => by have := congrArg State.host h; simp [State.reset] at this, rfl⟩

theorem witness_UnlistedOperands :
    ∃ (i : Instr) (s u t : State), s.ctx = u.ctx ∧ s.params = u.params ∧ Operands.agreeFor s.ports u.ports i ∧
      s.ports ≠ u.ports ∧ exec i s = .next t :=
  ⟨.nonceSize, State.reset, { State.reset with ports := noncePorts }, _, rfl, rfl, trivial, by decide, rfl⟩

theorem witness_UnwrittenRegisters :
    ∃ (i : Instr) (s u t : State),
      s.ctx.ksValid = false ∧ s.ctx.ctxValid = false ∧ u.ctx.ksValid = false ∧ u.ctx.ctxValid = false ∧
      s.params = u.params ∧ s.ports = u.ports ∧ s.ctx.h ≠ u.ctx.h ∧ exec i s = .next t :=
  ⟨.ghash, State.reset, { State.reset with ctx := { Context.reset with h := gfOne } }, _, rfl, rfl, rfl, rfl, rfl, rfl,
    by decide, rfl⟩

theorem witness_OutLen :
    ∃ (i : Instr) (s t : State) (r : Response), exec i s = .next t ∧ t.response = some r ∧
      r.dataOut.length < 2 ^ 64 :=
  ⟨.nonceSize, State.reset, _, _, rfl, rfl, by decide⟩

theorem witness_NoAnswerDependsOnStrategy :
    ∃ (i : Instr) (s u t : State),
      s.consistent ∧ u.consistent ∧ s.ctx.agreesBesideTable u.ctx ∧ s.params.hasInvCipher = u.params.hasInvCipher ∧
      s.ports = u.ports ∧ s.params.mulStrategy ≠ u.params.mulStrategy ∧ s.ctx.ctxValid = true ∧ exec i s = .next t :=
  ⟨.ghash,
    { State.reset with params := under .serial, ctx := zeroKeySlot .serial },
    { State.reset with params := under .clmul, ctx := zeroKeySlot .clmul },
    _, zeroKeySlot_consistent _ (by decide), zeroKeySlot_consistent _ (by decide),
    ⟨rfl, rfl, rfl, rfl, rfl, by simp only [zeroKeySlot, Context.withHash]⟩, rfl, rfl, by decide, rfl, rfl⟩

theorem witness_keyLengths :
    (∃ s : State, s.ports.keyIn.length = 16) ∧ (∃ s : State, s.ports.keyIn.length = 24) ∧
      (∃ s : State, s.ports.keyIn.length = 32) :=
  ⟨⟨withOps { emptyPorts with keyIn := hex 16 0 }, rfl⟩, ⟨withOps { emptyPorts with keyIn := hex 24 0 }, rfl⟩,
    ⟨withOps { emptyPorts with keyIn := hex 32 0 }, rfl⟩⟩

theorem witness_IllegalKeyLengths :
    ∃ s : State, s.ports.keyIn.length ≠ 16 ∧ s.ports.keyIn.length ≠ 24 ∧ s.ports.keyIn.length ≠ 32 :=
  ⟨withOps { emptyPorts with keyIn := hex 17 0 }, by decide, by decide, by decide⟩

theorem witness_NewAeadReplaces :
    ∃ s u t v : State, s.params = u.params ∧ s.ports.keyIn = u.ports.keyIn ∧ s.ports.keyIn.length = 16 ∧
      s.ctx.nk ≠ u.ctx.nk ∧ exec .newAead s = .next t ∧ exec .newAead u = .next v :=
  ⟨withOps { emptyPorts with keyIn := hex 16 0 }, ready { emptyPorts with keyIn := hex 16 0 }, _, _, rfl, rfl, rfl,
    by decide, rfl, rfl⟩

theorem witness_ExpandKeyDisables :
    ∃ s t : State, s.ports.keyIn.length = 16 ∧ s.ctx.ctxValid = true ∧ exec .expandKey s = .next t :=
  ⟨ready { emptyPorts with keyIn := hex 16 0 }, _, rfl, rfl, rfl⟩

theorem witness_WordsAbove :
    ∃ c d : Context, c.nr = d.nr ∧ (∀ i, i < 4 * (c.nr.val + 1) → readW c.w i = readW d.w i) ∧ c.w ≠ d.w := by
  refine ⟨(ready emptyPorts).ctx, { (ready emptyPorts).ctx with w := writeW (ready emptyPorts).ctx.w 59 1 }, rfl, ?_, ?_⟩
  · intro i hi
    have : i < 44 := hi
    exact (readW_writeW_other (by omega)).symm
  · decide +kernel

theorem witness_Sbox : ∃ a b : Byte, mulMod a b = 1 := ⟨0x53, 0xca, by decide⟩

theorem witness_EncryptBlock : ∃ (s : State) (b : Block), s.ctx.ksValid = true ∧ s.ports.dataIn = b.toList :=
  ⟨ready { emptyPorts with dataIn := zeroBlock.toList }, zeroBlock, rfl, rfl⟩

theorem witness_DecryptBlock :
    ∃ (s : State) (b : Block), s.params.hasInvCipher = true ∧ s.ctx.ksValid = true ∧ s.ports.dataIn = b.toList :=
  ⟨ready { emptyPorts with dataIn := zeroBlock.toList }, zeroBlock, rfl, rfl, rfl⟩

theorem witness_BlockFailures :
    (∃ s : State, s.params.hasInvCipher = false) ∧
      (∃ s : State, s.ctx.ksValid = false ∧ s.params.hasInvCipher = true) ∧
      (∃ s : State, s.ctx.ksValid = true ∧ s.ports.dataIn.length ≠ 16 ∧ s.params.hasInvCipher = true) :=
  ⟨⟨State.reset, rfl⟩, ⟨withOps emptyPorts, rfl, rfl⟩,
    ⟨ready { emptyPorts with dataIn := hex 17 0 }, rfl, by decide, rfl⟩⟩

theorem witness_GhashHorner : ∃ s : State, s.consistent ∧ s.ctx.ctxValid = true :=
  ⟨{ State.reset with params := under .serial, ctx := zeroKeySlot .serial },
    zeroKeySlot_consistent _ (by decide), rfl⟩

theorem witness_GhashPadding : ∃ (d : List Byte) (k : Nat), 0 < k ∧ d.length + k ≤ 16 * nblocks d.length :=
  ⟨hex 20 0, 12, by decide, by decide⟩

theorem witness_CounterBlock : ∃ nonce : List Byte, nonce.length = 12 := ⟨hex 12 0, rfl⟩

theorem witness_CipherBlocks : ∃ s : State, s.ctx.ksValid = true ∧ 0 < s.ports.dataIn.length :=
  ⟨ready { emptyPorts with dataIn := hex 17 0 }, rfl, by decide⟩

theorem witness_Seal :
    ∃ s : State, s.ctx.ctxValid = true ∧ s.ports.nonceIn.length = 12 ∧ s.ports.dataIn.length ≤ 2 ^ 36 - 32 ∧
      s.ports.aadIn.length ≤ 2 ^ 61 - 1 :=
  ⟨ready noncePorts, rfl, rfl, by decide, by decide⟩

/-- There are sequences of every length. -/
theorem exists_length (n : Nat) : ∃ l : List Byte, l.length = n := ⟨List.replicate n 0, List.length_replicate⟩

theorem witness_SealFailures :
    (∃ s : State, s.ctx.ctxValid = false) ∧
      (∃ s : State, s.ctx.ctxValid = true ∧ s.ports.nonceIn.length ≠ 12) ∧
      (∃ s : State, s.ctx.ctxValid = true ∧ s.ports.nonceIn.length = 12 ∧ s.ports.dataIn.length = 2 ^ 36 - 31) ∧
      (∃ s : State, s.ctx.ctxValid = true ∧ s.ports.nonceIn.length = 12 ∧ s.ports.aadIn.length = 2 ^ 61) := by
  obtain ⟨data, hdata⟩ := exists_length (2 ^ 36 - 31)
  obtain ⟨aad, haad⟩ := exists_length (2 ^ 61)
  exact ⟨⟨State.reset, rfl⟩, ⟨ready { emptyPorts with nonceIn := hex 13 0 }, rfl, by decide⟩,
    ⟨ready { noncePorts with dataIn := data }, rfl, rfl, hdata⟩,
    ⟨ready { noncePorts with aadIn := aad }, rfl, rfl, haad⟩⟩

theorem witness_OpenFailures :
    (∃ s : State, s.ctx.ctxValid = false) ∧
      (∃ s : State, s.ctx.ctxValid = true ∧ s.ports.nonceIn.length ≠ 12) ∧
      (∃ s : State, s.ctx.ctxValid = true ∧ s.ports.nonceIn.length = 12 ∧ s.ports.dataIn.length = 2 ^ 36 - 15) ∧
      (∃ s : State, s.ctx.ctxValid = true ∧ s.ports.nonceIn.length = 12 ∧ s.ports.aadIn.length = 2 ^ 61) ∧
      (∃ s : State, s.ctx.ctxValid = true ∧ s.ports.nonceIn.length = 12 ∧ s.ports.aadIn.length ≤ 2 ^ 61 - 1 ∧
        s.ports.dataIn.length < 16) := by
  obtain ⟨data, hdata⟩ := exists_length (2 ^ 36 - 15)
  obtain ⟨aad, haad⟩ := exists_length (2 ^ 61)
  exact ⟨⟨State.reset, rfl⟩, ⟨ready { emptyPorts with nonceIn := hex 11 0 }, rfl, by decide⟩,
    ⟨ready { noncePorts with dataIn := data }, rfl, rfl, hdata⟩,
    ⟨ready { noncePorts with aadIn := aad }, rfl, rfl, haad⟩,
    ⟨ready { noncePorts with dataIn := hex 15 0 }, rfl, rfl, by decide, by decide⟩⟩

/-- An input of `OPEN` with an empty ciphertext and the tag `tag`. -/
def tagOnly (tag : Block) : State := ready { noncePorts with dataIn := tag.toList }

/-- The tag of the empty ciphertext. -/
def emptyTag : Block := expectedTag .serial (ready noncePorts).ctx (hex 12 0) [] []

theorem witness_OpenAnswers :
    ∃ (s : State) (ct : List Byte), s.ctx.ctxValid = true ∧ s.ports.nonceIn.length = 12 ∧ ct.length ≤ 2 ^ 36 - 32 ∧
      s.ports.aadIn.length ≤ 2 ^ 61 - 1 ∧
      s.ports.dataIn = ct ++
        (expectedTag s.params.mulStrategy s.ctx s.ports.nonceIn s.ports.aadIn ct).toList :=
  ⟨tagOnly emptyTag, [], rfl, rfl, by decide, by simp [tagOnly, ready, noncePorts, emptyPorts, withOps], rfl⟩

/-- A block with its first bit changed is another block. -/
theorem flipped_ne (b : Block) : b.set 0 (b[0] ^^^ 1) ≠ b := by
  intro h
  have h0 : b[0] ^^^ 1 = b[0] := by
    simpa using congrArg (fun v : Block => v[0]) h
  have := congrArg (fun x => b[0] ^^^ x) h0
  simp at this

theorem witness_OpenRejectsAnyOtherTag :
    ∃ (s : State) (ct : List Byte) (tag : Block), s.ctx.ctxValid = true ∧ s.ports.nonceIn.length = 12 ∧
      ct.length ≤ 2 ^ 36 - 32 ∧ s.ports.aadIn.length ≤ 2 ^ 61 - 1 ∧ s.ports.dataIn = ct ++ tag.toList ∧
      tag ≠ expectedTag s.params.mulStrategy s.ctx s.ports.nonceIn s.ports.aadIn ct :=
  ⟨tagOnly (emptyTag.set 0 (emptyTag[0] ^^^ 1)), [], emptyTag.set 0 (emptyTag[0] ^^^ 1), rfl, rfl, by decide,
    by simp [tagOnly, ready, noncePorts, emptyPorts, withOps], rfl, flipped_ne emptyTag⟩

/-- `SEAL` of the empty message. -/
theorem seal_empty :
    exec .sealMessage (ready noncePorts) = .next ((ready noncePorts).withResponse (okResponse emptyTag.toList)) := rfl

theorem witness_OpenReturnsWhatWasSealed :
    ∃ (s t : State) (r : Response), exec .sealMessage s = .next t ∧ t.response = some r ∧ r.status = .ok :=
  ⟨ready noncePorts, (ready noncePorts).withResponse (okResponse emptyTag.toList), okResponse emptyTag.toList, seal_empty,
    rfl, okResponse_status _⟩

theorem witness_OpenRejectsAlteredTag :
    ∃ (s t : State) (r : Response) (forged : List Byte),
      exec .sealMessage s = .next t ∧ t.response = some r ∧ r.status = .ok ∧ forged.length = r.dataOut.length ∧
      forged.take s.ports.dataIn.length = r.dataOut.take s.ports.dataIn.length ∧ forged ≠ r.dataOut :=
  ⟨ready noncePorts, (ready noncePorts).withResponse (okResponse emptyTag.toList), okResponse emptyTag.toList,
    (emptyTag.set 0 (emptyTag[0] ^^^ 1)).toList, seal_empty, rfl, okResponse_status _,
    by simp only [okResponse_dataOut, Vector.length_toList], by simp [ready, noncePorts, emptyPorts, withOps],
    fun h => flipped_ne emptyTag (Vector.toList_inj.mp h)⟩

/-- A loop of Algorithm 1 over positions where `y` has no bit set leaves the accumulator. -/
theorem multiplyStep_loop_no_bits (y : GF128) (is : List Nat) (h : ∀ i ∈ is, y.getLsbD (127 - i) = false)
    (zv : GF128 × GF128) : (is.foldl (multiplyStep y) zv).1 = zv.1 := by
  induction is generalizing zv with
  | nil => rfl
  | cons i is ih =>
    rw [List.foldl_cons, ih (fun j hj => h j (List.mem_cons_of_mem _ hj))]
    simp [multiplyStep, h i List.mem_cons_self]

theorem multiply_one_right (x : GF128) : multiply x gfOne = x := by
  have hr : List.range 128 = 0 :: List.range' 1 127 := by decide +kernel
  rw [multiply, hr, List.foldl_cons, multiplyStep_loop_no_bits]
  · simp [multiplyStep, gfOne]
  · decide +kernel

theorem witness_OpenRejectsFlippedBit :
    ∃ (s t : State) (r : Response) (j b : Nat),
      (∀ x, mulH s.params.mulStrategy s.ctx x = multiply x s.ctx.h) ∧ (∀ x, multiply x s.ctx.h = 0 → x = 0) ∧
      exec .sealMessage s = .next t ∧ t.response = some r ∧ r.status = .ok ∧ b < 8 ∧
      j < s.ports.dataIn.length ∧ j < s.ports.aadIn.length :=
  ⟨ready { noncePorts with dataIn := hex 1 0, aadIn := hex 1 0 }, _, _, 0, 0, fun _ => rfl,
    fun x h => by rwa [show (ready _).ctx.h = gfOne from rfl, multiply_one_right] at h,
    rfl, rfl, rfl, by decide, by decide, by decide⟩

theorem witness_OpenReleasesNothing :
    ∃ (s t : State) (r : Response), exec .openMessage s = .next t ∧ t.response = some r ∧ r.status ≠ .ok :=
  ⟨State.reset, _, _, rfl, rfl, by decide⟩

theorem witness_ComponentCommands : ∃ s : State, s.ctx.ctxValid = false ∧ s.ctx.ksValid = false :=
  ⟨State.reset, rfl, rfl⟩

end Sys2Proof.Machine.Tests
end

-- Proofs: what the decoder answers (spec/30_encoding.md R82, R87, R88)
section
-- Elaborates the proofs one after another: the check's memory limit counts a stack for each proof in the making.
set_option deprecated.oldSectionVars true
/-! The decoder against the encoder: which command a word decodes to, and which words are reserved. -/

namespace Sys2Proof

/-- A word decodes to the command that the search of the table finds. -/
theorem decode_eq_ok_iff_find? {e : CmdEncoding} {cmd : Byte} {i : Instr} :
    decode e cmd = .ok i ↔ allCommands.find? (fun j => encode e j == cmd) = some i := by
  unfold decode
  split
  · next j hj => simp [hj]
  · next hn =>
    rw [hn]
    split <;> simp

/-- A word decodes only to a command whose word it is, even where two commands share a word. -/
theorem eq_encode_of_decode_eq_ok {e : CmdEncoding} {cmd : Byte} {i : Instr} (h : decode e cmd = .ok i) :
    cmd = encode e i := by
  rw [decode_eq_ok_iff_find?] at h
  have hi := List.find?_some h
  exact (eq_of_beq hi).symm

/-- Every command's word decodes to some command. -/
theorem exists_decode_encode_eq_ok (e : CmdEncoding) (i : Instr) : ∃ j, decode e (encode e i) = .ok j := by
  have hfound : (allCommands.find? fun j => encode e j == encode e i).isSome :=
    List.find?_isSome.mpr ⟨i, mem_allCommands i, beq_self_eq_true _⟩
  obtain ⟨j, hj⟩ := Option.isSome_iff_exists.mp hfound
  rw [← decode_eq_ok_iff_find?] at hj
  exact ⟨j, hj⟩

/-- Under an assignment, the decoder undoes the encoder. -/
theorem decode_encode {e : CmdEncoding} (he : e.wellFormed = true) (i : Instr) : decode e (encode e i) = .ok i := by
  obtain ⟨j, hj⟩ := exists_decode_encode_eq_ok e i
  rw [hj, encode_inj he (eq_encode_of_decode_eq_ok hj)]

/-- A word that encodes no command decodes to none (R87). -/
theorem exists_decode_eq_error {e : CmdEncoding} {cmd : Byte} (h : ∀ i, cmd ≠ encode e i) :
    ∃ err, decode e cmd = .error err := by
  cases hd : decode e cmd with
  | error err => exact ⟨err, rfl⟩
  | ok i => exact absurd (eq_encode_of_decode_eq_ok hd) (h i)

/-- Settles O9: forwards by what the search of the table returns, backwards because an assignment is one-to-one. -/
theorem decodeAndEncodeAgree : Obligations.DecodeAndEncodeAgree := by
  unfold Obligations.DecodeAndEncodeAgree
  refine ⟨by decide, fun e he cmd i => ⟨eq_encode_of_decode_eq_ok, ?_⟩⟩
  rintro rfl
  exact decode_encode he i

end Sys2Proof
end

-- Proofs: one equation of `step` per move of the host (spec/00_scope.md R9, R17)
section
-- Elaborates the proofs one after another: the check's memory limit counts a stack for each proof in the making.
set_option deprecated.oldSectionVars true
/-! What a step does, by the host's next move, and the statements about the whole machine that are read off it. -/

namespace Sys2Proof.Machine

theorem step_of_no_move {s : State} (h : s.host = []) : step s = .next s := by
  simp only [step, h, idle]

theorem step_of_issue {s : State} {r : Issue} {rest : List HostMove} (h : s.host = .issue r :: rest) :
    step s = runCommand r.cmd (accept r rest s) := by
  simp only [step, h]

theorem runCommand_of_decode_eq_ok {cmd : Byte} {s : State} {i : Instr}
    (h : decode s.params.cmdEncoding cmd = .ok i) : runCommand cmd s = exec i s := by
  simp only [runCommand, h]

theorem runCommand_of_decode_eq_error {cmd : Byte} {s : State} {err : DecodeError}
    (h : decode s.params.cmdEncoding cmd = .error err) : runCommand cmd s = raise .illegalCommand s := by
  simp only [runCommand, h, execReserved]

/-- `DECRYPTBLOCK` without the inverse cipher is an illegal command, whatever the state (R87, R135). -/
theorem exec_decryptBlock_of_no_invCipher {s : State} (h : s.params.hasInvCipher = false) :
    exec .decryptBlock s = raise .illegalCommand s := by
  simp only [exec, execDecryptBlock, if_pos h]

/-- Settles O7: with no move left, `step` is `idle`. -/
theorem idleEngineChangesNothing : Obligations.IdleEngineChangesNothing := by
  unfold Obligations.IdleEngineChangesNothing
  exact fun _ => step_of_no_move

/-- Settles O1: the reset engine has no move to take. -/
theorem resetLeavesNoContext : Obligations.ResetLeavesNoContext := by
  unfold Obligations.ResetLeavesNoContext
  exact ⟨fun p => ⟨rfl, rfl, rfl, rfl, step_of_no_move (State.resetWith_host p)⟩, rfl, rfl⟩

/-- Settles O4: the engine accepts the issue, then runs the command that its word decodes to. -/
theorem stepRunsDecodedCommand : Obligations.StepRunsDecodedCommand := by
  unfold Obligations.StepRunsDecodedCommand
  intro s r rest i hhost hdecode
  rw [step_of_issue hhost, runCommand_of_decode_eq_ok (by simpa using hdecode), accept]

/-- Settles O5: an unlisted word does not decode, and `DECRYPTBLOCK` without its option raises; both after the issue
has been accepted. -/
theorem reservedWordsFailWithIllegalCommand : Obligations.ReservedWordsFailWithIllegalCommand := by
  unfold Obligations.ReservedWordsFailWithIllegalCommand
  intro s r rest hhost hreserved
  have hrun : runCommand r.cmd (accept r rest s) = raise .illegalCommand (accept r rest s) := by
    rcases hreserved with hunlisted | ⟨hdecode, habsent⟩
    · obtain ⟨err, herr⟩ := exists_decode_eq_error hunlisted
      exact runCommand_of_decode_eq_error (by simpa using herr)
    · rw [runCommand_of_decode_eq_ok (by simpa using hdecode),
        exec_decryptBlock_of_no_invCipher (by simpa using habsent)]
  rw [step_of_issue hhost, hrun]
  rfl

end Sys2Proof.Machine
end

-- Proofs: functions on bit vectors that are linear over GF(2)
section
-- Elaborates the proofs one after another: the check's memory limit counts a stack for each proof in the making.
set_option deprecated.oldSectionVars true
/-! Linear functions over GF(2), where addition is XOR (spec/42_gf128_multiplier.md R150). Two of them are equal when
they agree on the single-bit vectors; the multiplier's identities are proved this way. -/

namespace Sys2Proof

/-- `f` is linear over GF(2): it respects XOR. -/
def XorLinear {n m : Nat} (f : BitVec n → BitVec m) : Prop := ∀ x y, f (x ^^^ y) = f x ^^^ f y

theorem foldl_xor_of_eq_zero {ι : Type} {w : Nat} {t : ι → BitVec w} {is : List ι} (h : ∀ j ∈ is, t j = 0#w)
    (z : BitVec w) : is.foldl (fun acc j => acc ^^^ t j) z = z := by
  induction is generalizing z with
  | nil => rfl
  | cons j is ih =>
    rw [List.foldl_cons, h j List.mem_cons_self, BitVec.xor_zero, ih fun k hk => h k (List.mem_cons_of_mem j hk)]

/-- A left fold that adds one term per index, where the terms of all indices but one are zero. -/
theorem foldl_xor_eq_single {ι : Type} {w : Nat} {t : ι → BitVec w} {is : List ι} {i : ι} (hnodup : is.Nodup)
    (hi : i ∈ is) (h : ∀ j ∈ is, j ≠ i → t j = 0#w) (z : BitVec w) :
    is.foldl (fun acc j => acc ^^^ t j) z = z ^^^ t i := by
  induction is generalizing z with
  | nil => cases hi
  | cons j is ih =>
    obtain ⟨hj, hnodup⟩ := List.nodup_cons.mp hnodup
    have hrest (k) (hk : k ∈ is) := h k (List.mem_cons_of_mem j hk)
    rw [List.foldl_cons]
    rcases List.mem_cons.mp hi with rfl | hi
    · exact foldl_xor_of_eq_zero (fun k hk => hrest k hk (ne_of_mem_of_not_mem hk hj)) _
    · rw [h j List.mem_cons_self (ne_of_mem_of_not_mem hi hj).symm, BitVec.xor_zero, ih hnodup hi hrest]

namespace XorLinear

variable {n m k : Nat} {f g : BitVec n → BitVec m}

theorem map_zero (hf : XorLinear f) : f 0#n = 0#m := by
  have h := hf 0#n 0#n
  rwa [BitVec.xor_self, BitVec.xor_self] at h

theorem id : XorLinear fun x : BitVec n => x := fun _ _ => rfl

theorem comp {g : BitVec m → BitVec k} (hg : XorLinear g) (hf : XorLinear f) : XorLinear fun x => g (f x) :=
  fun x y => by simp only [hf x y, hg _ _]

theorem xor (hf : XorLinear f) (hg : XorLinear g) : XorLinear fun x => f x ^^^ g x :=
  fun x y => by simp only [hf x y, hg x y]; ac_rfl

theorem shiftLeft (hf : XorLinear f) (c : Nat) : XorLinear fun x => f x <<< c :=
  fun x y => by simp only [hf x y, BitVec.shiftLeft_xor_distrib]

theorem ushiftRight (hf : XorLinear f) (c : Nat) : XorLinear fun x => f x >>> c :=
  fun x y => by simp only [hf x y, BitVec.ushiftRight_xor_distrib]

theorem setWidth (hf : XorLinear f) (k : Nat) : XorLinear fun x => (f x).setWidth k :=
  fun x y => by simp only [hf x y, BitVec.setWidth_xor]

theorem extractLsb' (hf : XorLinear f) (i k : Nat) : XorLinear fun x => (f x).extractLsb' i k :=
  fun x y => by simp only [hf x y, BitVec.extractLsb'_xor]

theorem reverse (hf : XorLinear f) : XorLinear fun x => (f x).reverse := fun x y => by
  ext i hi
  simp [hf x y, BitVec.getElem_reverse, BitVec.getMsbD_xor]

/-- Adding a constant where a bit of the argument is set is linear. -/
theorem ite_getLsbD (i : Nat) (c : BitVec m) : XorLinear fun x : BitVec n => if x.getLsbD i then c else 0 :=
  fun x y => by
    dsimp only
    rw [BitVec.getLsbD_xor]
    cases x.getLsbD i <;> cases y.getLsbD i <;> simp

/-- A left fold that adds one linear term per turn is linear. -/
theorem foldl {ι : Type} (is : List ι) (f : ι → BitVec n → BitVec m) (hf : ∀ i ∈ is, XorLinear (f i)) :
    XorLinear fun x => is.foldl (fun acc i => acc ^^^ f i x) 0 := by
  induction is using List.reverseRecOn with
  | nil => exact fun _ _ => (BitVec.xor_self).symm
  | append_singleton is i ih =>
    simp only [List.foldl_append, List.foldl_cons, List.foldl_nil]
    exact (ih fun j hj => hf j (by simp [hj])).xor (hf i (by simp))

/-- Below bit `k`, linear functions that agree on the single-bit vectors are equal: each turn takes the top bit off. -/
theorem eq_of_twoPow_lt (hf : XorLinear f) (hg : XorLinear g) (h : ∀ j < k, f (.twoPow n j) = g (.twoPow n j)) :
    ∀ x : BitVec n, (∀ j, k ≤ j → x.getLsbD j = false) → f x = g x := by
  induction k with
  | zero =>
    intro x hx
    have h0 : x = 0#n := BitVec.eq_of_getLsbD_eq fun j _ => by simp [hx j (Nat.zero_le j)]
    rw [h0, hf.map_zero, hg.map_zero]
  | succ k ih =>
    intro x hx
    have ih := ih fun j hj => h j (Nat.lt_succ_of_lt hj)
    by_cases hk : x.getLsbD k = true
    · have hkn : k < n := BitVec.lt_of_getLsbD hk
      have hlow : f (x ^^^ .twoPow n k) = g (x ^^^ .twoPow n k) := by
        refine ih _ fun j hj => ?_
        by_cases hjk : j = k
        · subst hjk; simp [hk, hkn]
        · simp [hx j (by omega), BitVec.getLsbD_twoPow, Ne.symm hjk]
      have hsplit : x = (x ^^^ .twoPow n k) ^^^ .twoPow n k := by
        rw [BitVec.xor_assoc, BitVec.xor_self, BitVec.xor_zero]
      rw [hsplit, hf, hg, hlow, h k k.lt_succ_self]
    · refine ih x fun j hj => ?_
      by_cases hjk : j = k
      · subst hjk; simpa using hk
      · exact hx j (by omega)

/-- Linear functions that agree on the single-bit vectors are equal. -/
theorem eq_of_twoPow (hf : XorLinear f) (hg : XorLinear g) (h : ∀ j < n, f (.twoPow n j) = g (.twoPow n j))
    (x : BitVec n) : f x = g x :=
  hf.eq_of_twoPow_lt hg h x fun _ => BitVec.getLsbD_of_ge x _

end XorLinear

end Sys2Proof
end

-- Proofs: Algorithm 1 (spec/42_gf128_multiplier.md R153)
section
-- Elaborates the proofs one after another: the check's memory limit counts a stack for each proof in the making.
set_option deprecated.oldSectionVars true
/-! Algorithm 1 is linear in each factor, and multiplies by a single bit by repeating its shift step. -/

namespace Sys2Proof.Machine

theorem mulAlpha_eq_xor (v : GF128) : mulAlpha v = v >>> 1 ^^^ if v.getLsbD 0 then gfR else 0 := by
  unfold mulAlpha
  split
  · rfl
  · exact BitVec.xor_zero.symm

theorem mulAlpha_xorLinear : XorLinear mulAlpha := by
  simpa only [← mulAlpha_eq_xor] using (XorLinear.id.ushiftRight 1).xor (XorLinear.ite_getLsbD 0 gfR)

theorem iterate_mulAlpha_xorLinear (n : Nat) : XorLinear mulAlpha^[n] := by
  induction n with
  | zero => exact XorLinear.id
  | succ n ih =>
    intro x y
    simp only [Function.iterate_succ_apply', ih x y, mulAlpha_xorLinear _ _]

/-- The term that iteration `i` of Algorithm 1 adds to `Z`. -/
def multiplyTerm (x y : GF128) (i : Nat) : GF128 := if y.getLsbD (127 - i) then mulAlpha^[i] x else 0

/-- Algorithm 1 after `n` iterations: `Z` is the sum of the terms, `V` is `x` shifted `n` times. -/
theorem multiplyStep_range (x y : GF128) (n : Nat) :
    (List.range n).foldl (multiplyStep y) (0, x) =
      ((List.range n).foldl (fun z i => z ^^^ multiplyTerm x y i) 0, mulAlpha^[n] x) := by
  induction n with
  | zero => rfl
  | succ n ih =>
    rw [List.range_succ, List.foldl_append, List.foldl_append, ih, Function.iterate_succ_apply']
    by_cases h : y.getLsbD (127 - n) <;> simp [multiplyStep, multiplyTerm, h]

theorem multiply_eq_foldl (x y : GF128) :
    multiply x y = (List.range 128).foldl (fun z i => z ^^^ multiplyTerm x y i) 0 := by
  rw [multiply, multiplyStep_range]

/-- Algorithm 1 distributes over addition in its first factor (R151). -/
theorem multiply_left_xorLinear (y : GF128) : XorLinear fun x => multiply x y := by
  simp only [multiply_eq_foldl]
  refine XorLinear.foldl _ (fun i x => multiplyTerm x y i) fun i _ x z => ?_
  by_cases h : y.getLsbD (127 - i) <;> simp [multiplyTerm, h, iterate_mulAlpha_xorLinear i x z]

/-- Algorithm 1 distributes over addition in its second factor (R151). -/
theorem multiply_right_xorLinear (x : GF128) : XorLinear fun y => multiply x y := by
  simp only [multiply_eq_foldl]
  exact XorLinear.foldl _ (fun i y => multiplyTerm x y i) fun i _ => XorLinear.ite_getLsbD (127 - i) _

/-- Algorithm 1 by a single bit repeats its shift step: GCM bit `i` is the monomial of degree `i` (R150). -/
theorem multiply_twoPow (x : GF128) {i : Nat} (hi : i < 128) :
    multiply x (.twoPow 128 (127 - i)) = mulAlpha^[i] x := by
  have hother : ∀ j ∈ List.range 128, j ≠ i → multiplyTerm x (.twoPow 128 (127 - i)) j = 0#128 := by
    intro j hj hji
    have hj := List.mem_range.mp hj
    have hbit : 127 - i ≠ 127 - j := by omega
    simp [multiplyTerm, BitVec.getLsbD_twoPow, hbit]
  rw [multiply_eq_foldl, foldl_xor_eq_single List.nodup_range (List.mem_range.mpr hi) hother]
  have hbit : 127 - i < 128 := by omega
  simp [multiplyTerm, hbit]

end Sys2Proof.Machine
end

-- Proofs: the table of the multiply-by-H (spec/42_gf128_multiplier.md R156, R157)
section
-- Elaborates the proofs one after another: the check's memory limit counts a stack for each proof in the making.
set_option deprecated.oldSectionVars true
/-! Sixteen table lookups add up the products of the element's bytes, and the bytes add up to the element. -/

namespace Sys2Proof.Machine

/-- Byte `p` of an element, at its place in the element (R57). -/
def placedByte (x : GF128) (p : Fin 16) : GF128 := ((blockOfElement x)[p]).setWidth 128 <<< (8 * (15 - p.val))

theorem placedByte_xorLinear (p : Fin 16) : XorLinear fun x => placedByte x p := by
  simp only [placedByte, blockOfElement, Fin.getElem_fin, Vector.getElem_ofFn]
  exact ((XorLinear.id.extractLsb' _ _).setWidth 128).shiftLeft _

theorem getLsbD_placedByte (x : GF128) (p : Fin 16) {k : Nat} (hk : k < 128) :
    (placedByte x p).getLsbD k = (decide (k / 8 = 15 - p.val) && x.getLsbD k) := by
  simp only [placedByte, blockOfElement, Fin.getElem_fin, Vector.getElem_ofFn, BitVec.getLsbD_shiftLeft,
    BitVec.getLsbD_setWidth, BitVec.getLsbD_extractLsb']
  by_cases h : k / 8 = 15 - p.val
  · have hk' : 8 * (15 - p.val) + (k - 8 * (15 - p.val)) = k := by omega
    simp [h, hk, hk', show ¬ k < 8 * (15 - p.val) by omega, show k - 8 * (15 - p.val) < 8 by omega,
      show k - 8 * (15 - p.val) < 128 by omega]
  · simp only [h, decide_false, Bool.false_and]
    simp
    omega

/-- The bytes of an element, each at its place, add up to the element. -/
theorem foldl_placedByte (x : GF128) : (List.finRange 16).foldl (fun z p => z ^^^ placedByte x p) 0 = x := by
  refine (XorLinear.foldl _ (fun p x => placedByte x p) fun p _ => placedByte_xorLinear p).eq_of_twoPow XorLinear.id
    (fun j hj => ?_) x
  let holder : Fin 16 := ⟨15 - j / 8, by omega⟩
  have hholder : placedByte (.twoPow 128 j) holder = .twoPow 128 j := BitVec.eq_of_getLsbD_eq fun k hk => by
    rw [getLsbD_placedByte _ _ hk, BitVec.getLsbD_twoPow]
    by_cases hkj : j = k
    · simp [holder, ← hkj]
      omega
    · simp [hkj]
  have hother (p : Fin 16) (hp : p ≠ holder) : placedByte (.twoPow 128 j) p = 0#128 :=
    BitVec.eq_of_getLsbD_eq fun k hk => by
      rw [getLsbD_placedByte _ _ hk, BitVec.getLsbD_twoPow]
      by_cases hkj : j = k
      · have hk8 : k / 8 ≠ 15 - p.val := fun h => hp (Fin.ext (by simp only [holder]; omega))
        simp [hk8]
      · simp [hkj]
  rw [foldl_xor_eq_single (List.nodup_finRange 16) (List.mem_finRange holder) fun p _ => hother p, hholder]
  exact BitVec.zero_xor

theorem readM_buildTable (h x : GF128) (p : Fin 16) :
    readM (buildTable h) p (blockOfElement x)[p] = multiply (placedByte x p) h := by
  simp [readM, buildTable, placedByte]

/-- The sum of the lookups is the product of the sum of the bytes. -/
theorem foldl_readM_buildTable (h x z : GF128) (ps : List (Fin 16)) :
    ps.foldl (fun z p => z ^^^ readM (buildTable h) p (blockOfElement x)[p]) (multiply z h) =
      multiply (ps.foldl (fun z p => z ^^^ placedByte x p) z) h := by
  induction ps generalizing z with
  | nil => rfl
  | cons p ps ih => rw [List.foldl_cons, List.foldl_cons, readM_buildTable, ← multiply_left_xorLinear h, ih]

/-- Table lookups multiply by `H` (R157). -/
theorem tableMultiply_buildTable (h x : GF128) : tableMultiply (buildTable h) x = multiply x h := by
  have hzero : multiply 0 h = 0 := (multiply_left_xorLinear h).map_zero
  calc tableMultiply (buildTable h) x
      = (List.finRange 16).foldl (fun z p => z ^^^ readM (buildTable h) p (blockOfElement x)[p]) (multiply 0 h) := by
        rw [hzero, tableMultiply]
    _ = multiply x h := by rw [foldl_readM_buildTable, foldl_placedByte]

end Sys2Proof.Machine
end

-- Proofs: the carry-less form of the multiplication (spec/42_gf128_multiplier.md R159 to R164)
section
-- Elaborates the proofs one after another: the check's memory limit counts a stack for each proof in the making.
set_option deprecated.oldSectionVars true
/-! The carry-less form equals Algorithm 1. Both are linear in the second factor, so it is enough to compare them on its
single bits: there the carry-less product is a shift of the reflected first factor, and the fold turns each shift by one
into one shift step of Algorithm 1. -/

namespace Sys2Proof.Machine

/-- The term that bit `k` of `b` adds to a carry-less product. -/
def clmulTerm (a b : Half) (k : Nat) : BitVec 128 := if b.getLsbD k then a.setWidth 128 <<< k else 0

theorem clmul64_eq_foldl (a b : Half) :
    clmul64 a b = (List.range 64).foldl (fun acc k => acc ^^^ clmulTerm a b k) 0 :=
  List.foldl_ext _ _ _ fun acc k _ => by
    by_cases h : b.getLsbD k <;> simp [clmulTerm, h]

theorem clmul64_right_xorLinear (a : Half) : XorLinear fun b => clmul64 a b := by
  simp only [clmul64_eq_foldl]
  exact XorLinear.foldl _ (fun k b => clmulTerm a b k) fun k _ => XorLinear.ite_getLsbD k _

@[simp] theorem clmul64_zero (a : Half) : clmul64 a 0#64 = 0#128 := (clmul64_right_xorLinear a).map_zero

/-- A carry-less product by a single bit is a shift. -/
theorem clmul64_twoPow (a : Half) {i : Nat} (hi : i < 64) : clmul64 a (.twoPow 64 i) = a.setWidth 128 <<< i := by
  have hother : ∀ k ∈ List.range 64, k ≠ i → clmulTerm a (.twoPow 64 i) k = 0#128 := fun k _ hki => by
    simp [clmulTerm, BitVec.getLsbD_twoPow, hki.symm]
  rw [clmul64_eq_foldl, foldl_xor_eq_single List.nodup_range (List.mem_range.mpr hi) hother]
  simp [clmulTerm, hi]

/-! ### The product of the reflected operands -/

theorem rev128_xorLinear : XorLinear rev128 := XorLinear.id.reverse

theorem getLsbD_rev128 (x : GF128) {k : Nat} (hk : k < 128) : (rev128 x).getLsbD k = x.getLsbD (127 - k) := by
  rw [rev128, BitVec.getLsbD_reverse, BitVec.getMsbD_eq_getLsbD]
  simp [hk]

@[simp] theorem rev128_rev128 (x : GF128) : rev128 (rev128 x) = x :=
  BitVec.eq_of_getLsbD_eq fun k hk => by
    rw [getLsbD_rev128 _ hk, getLsbD_rev128 _ (by omega), show 127 - (127 - k) = k by omega]

theorem rev128_twoPow {i : Nat} (hi : i < 128) : rev128 (.twoPow 128 (127 - i)) = .twoPow 128 i :=
  BitVec.eq_of_getLsbD_eq fun k hk => by
    rw [getLsbD_rev128 _ hk, BitVec.getLsbD_twoPow, BitVec.getLsbD_twoPow]
    congr 1 <;> simp only [decide_eq_decide] <;> omega

theorem karatsubaProduct_right_xorLinear (x : GF128) : XorLinear fun y => karatsubaProduct x y := by
  have hh := (clmul64_right_xorLinear ((rev128 x).extractLsb' 64 64)).comp (rev128_xorLinear.extractLsb' 64 64)
  have hl := (clmul64_right_xorLinear ((rev128 x).extractLsb' 0 64)).comp (rev128_xorLinear.extractLsb' 0 64)
  have hm := (clmul64_right_xorLinear ((rev128 x).extractLsb' 64 64 ^^^ (rev128 x).extractLsb' 0 64)).comp
    ((rev128_xorLinear.extractLsb' 64 64).xor (rev128_xorLinear.extractLsb' 0 64))
  exact (((hh.setWidth 256).shiftLeft 128).xor ((((hm.xor hh).xor hl).setWidth 256).shiftLeft 64)).xor (hl.setWidth 256)

/-- The halves of an element, at their places, add up to the element. -/
theorem halves_xor (a : GF128) :
    ((a.extractLsb' 64 64).setWidth 256 <<< 64) ^^^ (a.extractLsb' 0 64).setWidth 256 = a.setWidth 256 := by
  ext j hj
  by_cases h : j < 64
  · simp [h]
  · have hj : 64 + (j - 64) = j := by omega
    simp only [BitVec.getElem_xor, BitVec.getElem_shiftLeft, BitVec.getElem_setWidth, BitVec.getLsbD_extractLsb', h,
      hj]
    by_cases h' : j < 128
    · simp [show j - 64 < 64 by omega]
    · simp [BitVec.getLsbD_of_ge a j (by omega)]

/-- A half shifted by less than its length loses no bit in a product of halves. -/
theorem setWidth_shiftLeft_half (v : Half) {k : Nat} (hk : k < 64) :
    (v.setWidth 128 <<< k).setWidth 256 = v.setWidth 256 <<< k := by
  ext j hj
  by_cases h : j < 128
  · simp [h]
  · simp [h, BitVec.getLsbD_of_ge v (j - k) (by omega)]

theorem lowHalf_twoPow (i : Nat) : (BitVec.twoPow 128 i).extractLsb' 0 64 = .twoPow 64 i := by
  ext j hj
  simp [BitVec.getElem_twoPow, BitVec.getLsbD_twoPow, eq_comm]
  omega

theorem highHalf_twoPow (i : Nat) :
    (BitVec.twoPow 128 i).extractLsb' 64 64 = if i < 64 then 0#64 else .twoPow 64 (i - 64) := by
  ext j hj
  split
  · simp [BitVec.getLsbD_twoPow]
    omega
  · rw [BitVec.getElem_extractLsb', BitVec.getLsbD_twoPow, BitVec.getElem_twoPow, Bool.eq_iff_iff]
    simp only [Bool.and_eq_true, decide_eq_true_eq]
    omega

/-- The carry-less product of the reflected operands, the second a single bit, is a shift of the first. -/
theorem karatsubaProduct_twoPow (x : GF128) {i : Nat} (hi : i < 128) :
    karatsubaProduct x (.twoPow 128 (127 - i)) = (rev128 x).setWidth 256 <<< i := by
  rw [← halves_xor (rev128 x), BitVec.shiftLeft_xor_distrib]
  simp only [karatsubaProduct, rev128_twoPow hi, lowHalf_twoPow, highHalf_twoPow]
  generalize (rev128 x).extractLsb' 64 64 = ah
  generalize (rev128 x).extractLsb' 0 64 = al
  rcases Nat.lt_or_ge i 64 with h | h
  · have hmiddle : (ah ^^^ al).setWidth 128 <<< i ^^^ 0#128 ^^^ al.setWidth 128 <<< i = ah.setWidth 128 <<< i := by
      simp [BitVec.setWidth_xor, BitVec.shiftLeft_xor_distrib]
    rw [if_pos h, BitVec.zero_xor, clmul64_zero, clmul64_twoPow _ h, clmul64_twoPow _ h, hmiddle,
      setWidth_shiftLeft_half _ h, setWidth_shiftLeft_half _ h, ← BitVec.shiftLeft_add, ← BitVec.shiftLeft_add,
      Nat.add_comm i 64]
    simp
  · obtain ⟨k, rfl⟩ := Nat.exists_eq_add_of_le' h
    have hk : k < 64 := by omega
    have hlow : BitVec.twoPow 64 (k + 64) = 0#64 := by
      ext j hj
      simp [BitVec.getElem_twoPow]
      omega
    have hmiddle : (ah ^^^ al).setWidth 128 <<< k ^^^ ah.setWidth 128 <<< k ^^^ 0#128 = al.setWidth 128 <<< k := by
      rw [BitVec.xor_comm ah, BitVec.setWidth_xor, BitVec.shiftLeft_xor_distrib, BitVec.xor_zero, BitVec.xor_assoc,
        BitVec.xor_self, BitVec.xor_zero]
    rw [if_neg (Nat.not_lt.mpr h), Nat.add_sub_cancel, hlow, BitVec.xor_zero, clmul64_zero, clmul64_twoPow _ hk,
      clmul64_twoPow _ hk, hmiddle, setWidth_shiftLeft_half _ hk, setWidth_shiftLeft_half _ hk, ← BitVec.shiftLeft_add,
      ← BitVec.shiftLeft_add, ← BitVec.shiftLeft_add, show 64 + (k + 64) = k + 128 by omega]
    simp

/-! ### The fold -/

theorem foldShifts_xorLinear : XorLinear foldShifts :=
  ((XorLinear.id.xor (XorLinear.id.shiftLeft 1)).xor (XorLinear.id.shiftLeft 2)).xor (XorLinear.id.shiftLeft 7)

theorem foldProduct_xorLinear : XorLinear foldProduct := by
  have ht := foldShifts_xorLinear.comp (XorLinear.id.ushiftRight 128)
  exact ((XorLinear.id.setWidth 128).xor (ht.setWidth 128)).xor
    ((foldShifts_xorLinear.comp (ht.ushiftRight 128)).setWidth 128)

/-- A product of degree below 128 is folded already. -/
theorem foldProduct_setWidth (a : GF128) : foldProduct (a.setWidth 256) = a := by
  have hhigh : a.setWidth 256 >>> 128 = 0 := by
    ext j hj
    simp
  simp [foldProduct, hhigh, foldShifts]

/-- Multiplication by the monomial of degree 1, on a reflected element: the mirror image of Algorithm 1's shift step. -/
def mulX (v : GF128) : GF128 := (v <<< 1) ^^^ if v.getLsbD 127 then 0x87 else 0

theorem mulX_xorLinear : XorLinear mulX :=
  (XorLinear.id.shiftLeft 1).xor (XorLinear.ite_getLsbD 127 0x87)

theorem rev128_shiftLeft_one (v : GF128) : rev128 (v <<< 1) = rev128 v >>> 1 :=
  BitVec.eq_of_getLsbD_eq fun k hk => by
    rw [getLsbD_rev128 _ hk, BitVec.getLsbD_ushiftRight, BitVec.getLsbD_shiftLeft]
    by_cases h : k = 127
    · subst h; simp [BitVec.getLsbD_of_ge]
    · rw [getLsbD_rev128 _ (by omega), show 127 - (1 + k) = 127 - k - 1 by omega]
      simp
      omega

theorem rev128_mulX (v : GF128) : rev128 (mulX v) = mulAlpha (rev128 v) := by
  have hbit : (rev128 v).getLsbD 0 = v.getLsbD 127 := getLsbD_rev128 v (by omega)
  have hreduce : rev128 0x87 = gfR := by decide +kernel
  rw [mulX, mulAlpha, rev128_xorLinear, rev128_shiftLeft_one, hbit]
  by_cases h : v.getLsbD 127
  · rw [if_pos h, if_pos h, hreduce]
  · rw [if_neg h, if_neg h]
    simp [rev128]

/-- Folding a product shifted by one multiplies the folded product by that monomial, where the shift loses no bit. -/
theorem foldProduct_shiftLeft_one (p : BitVec 256) (hp : p.getLsbD 255 = false) :
    foldProduct (p <<< 1) = mulX (foldProduct p) := by
  refine XorLinear.eq_of_twoPow_lt (k := 255) (foldProduct_xorLinear.comp (XorLinear.id.shiftLeft 1))
    (mulX_xorLinear.comp foldProduct_xorLinear) (by decide +kernel) p fun j hj => ?_
  rcases Nat.eq_or_lt_of_le hj with rfl | hlt
  · exact hp
  · exact BitVec.getLsbD_of_ge _ _ hlt

/-- Folding a shift of the reflected element repeats the shift step of Algorithm 1. -/
theorem rev128_foldProduct_shiftLeft (x : GF128) (i : Nat) (hi : i < 128) :
    rev128 (foldProduct ((rev128 x).setWidth 256 <<< i)) = mulAlpha^[i] x := by
  induction i with
  | zero => simp [foldProduct_setWidth]
  | succ i ih =>
    have htop : ((rev128 x).setWidth 256 <<< i).getLsbD 255 = false := by
      have hbit : (rev128 x).getLsbD (255 - i) = false := BitVec.getLsbD_of_ge _ _ (by omega)
      simp [hbit]
    rw [BitVec.shiftLeft_add, foldProduct_shiftLeft_one _ htop, rev128_mulX, ih (by omega),
      Function.iterate_succ_apply']

/-- The carry-less multiplication equals Algorithm 1 (R164). -/
theorem multiplyClmul_eq_multiply (x y : GF128) : multiplyClmul x y = multiply x y := by
  refine XorLinear.eq_of_twoPow
    (rev128_xorLinear.comp (foldProduct_xorLinear.comp (karatsubaProduct_right_xorLinear x)))
    (multiply_right_xorLinear x) (fun j hj => ?_) y
  obtain ⟨i, hi, rfl⟩ : ∃ i, i < 128 ∧ j = 127 - i := ⟨127 - j, by omega, by omega⟩
  rw [karatsubaProduct_twoPow x hi, rev128_foldProduct_shiftLeft x i hi, multiply_twoPow x hi]

end Sys2Proof.Machine
end

-- Proofs: the multiply strategies compute one product (spec/42_gf128_multiplier.md R165, R166)
section
-- Elaborates the proofs one after another: the check's memory limit counts a stack for each proof in the making.
set_option deprecated.oldSectionVars true
/-! Every strategy multiplies by `H` as Algorithm 1 does: `CLMUL` on every element, `TABLE` on the table that a
consistent context holds. -/

namespace Sys2Proof.Machine

/-- `GFMUL` computes the product of Algorithm 1 under every strategy (R166). -/
@[simp] theorem gfmulUnder_eq_multiply (strategy : MulStrategy) (x y : GF128) :
    gfmulUnder strategy x y = multiply x y := by
  cases strategy with
  | serial => rfl
  | table => rfl
  | clmul => exact multiplyClmul_eq_multiply x y

/-- In a consistent context that is valid, every strategy multiplies by `H` (R165). -/
theorem Context.consistent.mulH_eq_multiply {strategy : MulStrategy} {c : Context} (hc : c.consistent strategy)
    (hvalid : c.ctxValid = true) (x : GF128) : mulH strategy c x = multiply x c.h := by
  obtain ⟨-, -, htable⟩ := hc.2 hvalid
  cases strategy with
  | serial => rfl
  | table => rw [mulH, htable rfl, tableMultiply_buildTable]
  | clmul => exact multiplyClmul_eq_multiply x c.h

end Sys2Proof.Machine
end

-- Proofs: engines that agree beside the table (spec/10_state.md R25, spec/42_gf128_multiplier.md R165)
section
-- Elaborates the proofs one after another: the check's memory limit counts a stack for each proof in the making.
set_option deprecated.oldSectionVars true
/-! Two engines whose context slots agree in everything but `M` compute the same: first each function of the context,
then each command's answer. -/

namespace Sys2Proof.Machine

/-! ### The functions of the context -/

section

variable {c d : Context} (h : c.agreesBesideTable d)
include h

/-- Block encryption reads `NR` and `W`. -/
theorem Context.agreesBesideTable.encryptBlock_eq : encryptBlock c = encryptBlock d := by
  obtain ⟨-, -, -, hnr, hw, -⟩ := h
  funext b
  rw [encryptBlock, encryptBlock, hnr, hw]

theorem Context.agreesBesideTable.decryptBlock_eq : decryptBlock c = decryptBlock d := by
  obtain ⟨-, -, -, hnr, hw, -⟩ := h
  funext b
  rw [decryptBlock, decryptBlock, hnr, hw]

theorem Context.agreesBesideTable.cipherBlocks_eq : cipherBlocks c = cipherBlocks d := by
  have hblock : cipherBlock c = cipherBlock d := by
    funext icb message blk
    simp only [cipherBlock, keystreamBlock, h.encryptBlock_eq]
  funext icb message
  rw [cipherBlocks, cipherBlocks, hblock]

theorem Context.agreesBesideTable.hashSubkey_eq : hashSubkey c = hashSubkey d := by
  rw [hashSubkey, hashSubkey, h.encryptBlock_eq]

/-- Contexts that agree go on agreeing when the same key is expanded into both. -/
theorem Context.agreesBesideTable.withSchedule (key : List Byte) :
    (c.withSchedule key).agreesBesideTable (d.withSchedule key) := by
  obtain ⟨-, hctx, -, -, hw, hh⟩ := h
  exact ⟨rfl, hctx, rfl, rfl, by simp only [Context.withSchedule_w, hw], hh⟩

/-- Contexts that agree go on agreeing when each derives `H`, and its own kind of table, from its key schedule. -/
theorem Context.agreesBesideTable.withHash (σ τ : MulStrategy) :
    (c.withHash σ).agreesBesideTable (d.withHash τ) := by
  have hsubkey := h.hashSubkey_eq
  obtain ⟨hks, -, hnk, hnr, hw, -⟩ := h
  exact ⟨hks, rfl, hnk, hnr, hw, by simp only [Context.withHash_h, hsubkey]⟩

section

variable {σ τ : MulStrategy} (hc : c.consistent σ) (hd : d.consistent τ) (hvalid : c.ctxValid = true)
include hc hd hvalid

/-- The multiply-by-`H` of two consistent contexts that agree is one function, whatever their strategies. -/
theorem Context.agreesBesideTable.mulH_eq : mulH σ c = mulH τ d := by
  obtain ⟨-, hctx, -, -, -, hh⟩ := h
  funext x
  rw [hc.mulH_eq_multiply hvalid, hd.mulH_eq_multiply (hctx ▸ hvalid), hh]

theorem Context.agreesBesideTable.ghash_eq : ghash σ c = ghash τ d := by
  have hstep : ghashStep σ c = ghashStep τ d := by
    funext data acc i
    rw [ghashStep, ghashStep, h.mulH_eq hc hd hvalid]
  funext data initial
  rw [ghash, ghash, hstep]

theorem Context.agreesBesideTable.expectedTag_eq : expectedTag σ c = expectedTag τ d := by
  funext nonce aad ct
  simp only [expectedTag, computeTag, tagMask, h.ghash_eq hc hd hvalid, h.encryptBlock_eq]

theorem Context.agreesBesideTable.sealOutput_eq : sealOutput σ c = sealOutput τ d := by
  funext nonce plaintext aad
  simp only [sealOutput, h.cipherBlocks_eq, h.expectedTag_eq hc hd hvalid]

end

end

/-! ### The commands -/

/-- Two outcomes are next states with the same response, and their context slots agree beside the table. -/
def AnswersAlike (o p : Host.Outcome State Fault Refusal) : Prop :=
  ∃ t v, o = .next t ∧ p = .next v ∧ v.response = t.response ∧ t.ctx.agreesBesideTable v.ctx

theorem finish_answersAlike {s u : State} (h : s.ctx.agreesBesideTable u.ctx) (data : List Byte) :
    AnswersAlike (finish data s) (finish data u) :=
  ⟨_, _, rfl, rfl, rfl, h⟩

theorem raise_answersAlike {s u : State} (h : s.ctx.agreesBesideTable u.ctx) (f : Failure) :
    AnswersAlike (raise f s) (raise f u) :=
  ⟨_, _, rfl, rfl, rfl, h⟩

/-- Two engines that no response tells apart: consistent, each under its own strategy, with slots that agree beside the
table, the same option and the same operands. -/
structure Indistinguishable (s u : State) : Prop where
  consistent_left : s.consistent
  consistent_right : u.consistent
  agrees : s.ctx.agreesBesideTable u.ctx
  hasInvCipher : s.params.hasInvCipher = u.params.hasInvCipher
  ports : s.ports = u.ports

section

variable {s u : State} (h : Indistinguishable s u)
include h

theorem Indistinguishable.sealEntry_eq : sealEntry s = sealEntry u := by
  obtain ⟨-, hctx, -⟩ := h.agrees
  rw [sealEntry, sealEntry, hctx, h.ports]

theorem Indistinguishable.openEntry_eq : openEntry s = openEntry u := by
  obtain ⟨-, hctx, -⟩ := h.agrees
  rw [openEntry, openEntry, hctx, h.ports]

theorem Indistinguishable.blockEntry_eq : blockEntry s = blockEntry u := by
  obtain ⟨hks, -⟩ := h.agrees
  rw [blockEntry, blockEntry, hks, h.ports]

theorem Indistinguishable.newAead_answersAlike : AnswersAlike (exec .newAead s) (exec .newAead u) := by
  simp only [exec, execNewAead, h.ports]
  split
  · exact raise_answersAlike h.agrees _
  · exact finish_answersAlike ((h.agrees.withSchedule _).withHash _ _) _

theorem Indistinguishable.expandKey_answersAlike : AnswersAlike (exec .expandKey s) (exec .expandKey u) := by
  simp only [exec, execExpandKey, h.ports]
  split
  · exact raise_answersAlike h.agrees _
  · obtain ⟨hks, -, hnk, hnr, hw, hh⟩ := h.agrees.withSchedule u.ports.keyIn
    have hwords :
        writeWords (s.ctx.withSchedule u.ports.keyIn).w (scheduleLength (s.ctx.withSchedule u.ports.keyIn).nr) =
          writeWords (u.ctx.withSchedule u.ports.keyIn).w (scheduleLength (u.ctx.withSchedule u.ports.keyIn).nr) := by
      rw [hw, hnr]
    rw [hwords]
    refine finish_answersAlike ?_ _
    exact ⟨hks, rfl, hnk, hnr, hw, hh⟩

theorem Indistinguishable.sealMessage_answersAlike : AnswersAlike (exec .sealMessage s) (exec .sealMessage u) := by
  simp only [exec, execSealMessage, h.sealEntry_eq]
  split
  · exact raise_answersAlike h.agrees _
  · next hentry =>
    have hvalid := (sealEntry_eq_none.mp (h.sealEntry_eq.trans hentry)).1
    rw [h.agrees.sealOutput_eq h.consistent_left h.consistent_right hvalid, h.ports]
    exact finish_answersAlike h.agrees _

theorem Indistinguishable.openMessage_answersAlike : AnswersAlike (exec .openMessage s) (exec .openMessage u) := by
  simp only [exec, execOpenMessage, h.openEntry_eq]
  split
  · exact raise_answersAlike h.agrees _
  · next hentry =>
    have hvalid := (openEntry_eq_none.mp (h.openEntry_eq.trans hentry)).1
    rw [h.agrees.expectedTag_eq h.consistent_left h.consistent_right hvalid, h.agrees.cipherBlocks_eq, h.ports]
    split
    · exact raise_answersAlike h.agrees _
    · exact finish_answersAlike h.agrees _

theorem Indistinguishable.encryptBlock_answersAlike : AnswersAlike (exec .encryptBlock s) (exec .encryptBlock u) := by
  simp only [exec, execEncryptBlock, h.blockEntry_eq, h.agrees.encryptBlock_eq, h.ports]
  split
  · exact raise_answersAlike h.agrees _
  · exact finish_answersAlike h.agrees _

theorem Indistinguishable.decryptBlock_answersAlike : AnswersAlike (exec .decryptBlock s) (exec .decryptBlock u) := by
  simp only [exec, execDecryptBlock, h.hasInvCipher, h.blockEntry_eq, h.agrees.decryptBlock_eq, h.ports]
  split
  · exact raise_answersAlike h.agrees _
  · split
    · exact raise_answersAlike h.agrees _
    · exact finish_answersAlike h.agrees _

theorem Indistinguishable.gfmul_answersAlike : AnswersAlike (exec .gfmul s) (exec .gfmul u) := by
  simp only [exec, execGfmul, gfmulUnder_eq_multiply, h.ports]
  exact finish_answersAlike h.agrees _

theorem Indistinguishable.ghash_answersAlike : AnswersAlike (exec .ghash s) (exec .ghash u) := by
  obtain ⟨-, hctx, -⟩ := h.agrees
  simp only [exec, execGhash]
  by_cases hvalid : s.ctx.ctxValid = false
  · rw [if_pos hvalid, if_pos (hctx ▸ hvalid)]
    exact raise_answersAlike h.agrees _
  · rw [if_neg hvalid, if_neg (hctx ▸ hvalid),
      h.agrees.ghash_eq h.consistent_left h.consistent_right (Bool.eq_true_of_not_eq_false hvalid), h.ports]
    exact finish_answersAlike h.agrees _

theorem Indistinguishable.cipherBlocks_answersAlike : AnswersAlike (exec .cipherBlocks s) (exec .cipherBlocks u) := by
  obtain ⟨hks, -⟩ := h.agrees
  simp only [exec, execCipherBlocks, hks, h.agrees.cipherBlocks_eq, h.ports]
  split
  · exact raise_answersAlike h.agrees _
  · exact finish_answersAlike h.agrees _

/-- No command tells the two engines apart. -/
theorem Indistinguishable.exec_answersAlike (i : Instr) : AnswersAlike (exec i s) (exec i u) := by
  cases i with
  | newAead => exact h.newAead_answersAlike
  | sealMessage => exact h.sealMessage_answersAlike
  | openMessage => exact h.openMessage_answersAlike
  | nonceSize => exact finish_answersAlike h.agrees _
  | overhead => exact finish_answersAlike h.agrees _
  | expandKey => exact h.expandKey_answersAlike
  | encryptBlock => exact h.encryptBlock_answersAlike
  | decryptBlock => exact h.decryptBlock_answersAlike
  | gfmul => exact h.gfmul_answersAlike
  | ghash => exact h.ghash_answersAlike
  | cipherBlocks => exact h.cipherBlocks_answersAlike

end

/-- Settles O19: by cases on the command, from the equality of the three multiplications. -/
theorem noAnswerDependsOnStrategy : Obligations.NoAnswerDependsOnStrategy := by
  unfold Obligations.NoAnswerDependsOnStrategy
  intro i s u t hs hu hagrees hinv hports hexec
  have h : Indistinguishable s u := ⟨hs, hu, hagrees, hinv, hports⟩
  obtain ⟨t', v, ht', hv, hresponse, hctx⟩ := h.exec_answersAlike i
  obtain rfl : t' = t := by simpa [hexec, eq_comm] using ht'
  exact ⟨v, hv, hresponse, hctx⟩

end Sys2Proof.Machine
end

-- Proofs: the key schedule in the word file (spec/40_key_schedule.md R108 to R110)
section
-- Elaborates the proofs one after another: the check's memory limit counts a stack for each proof in the making.
set_option deprecated.oldSectionVars true
/-! What `expandKey` leaves in the word file: the key, then the recurrence, then the words that stood there. The key
alone fixes the words of its schedule. -/

namespace Sys2Proof.Machine

/-! ### Key lengths -/

theorem nkOf_of_legal {n : Nat} (h : keyLengthLegal n = true) : nkOf n = 4 ∨ nkOf n = 6 ∨ nkOf n = 8 := by
  rcases keyLengthLegal_iff.mp h with rfl | rfl | rfl
  · exact .inl rfl
  · exact .inr (.inl rfl)
  · exact .inr (.inr rfl)

/-- `NR` is `NK + 6` for the legal lengths (R24). -/
theorem nrOf_val_of_legal {n : Nat} (h : keyLengthLegal n = true) : (nrOf n).val = nkOf n + 6 := by
  rcases keyLengthLegal_iff.mp h with rfl | rfl | rfl <;> rfl

/-- The field `NK` holds the number of key words of a legal key. -/
theorem toNat_nk_of_legal {n : Nat} (h : keyLengthLegal n = true) : (BitVec.ofNat 4 (nkOf n)).toNat = nkOf n := by
  rcases keyLengthLegal_iff.mp h with rfl | rfl | rfl <;> rfl

theorem legalSizes_of_legal {n : Nat} (h : keyLengthLegal n = true) :
    legalSizes (BitVec.ofNat 4 (nkOf n)) (nrOf n) := by
  rcases keyLengthLegal_iff.mp h with rfl | rfl | rfl
  · exact .inl ⟨rfl, rfl⟩
  · exact .inr (.inl ⟨rfl, rfl⟩)
  · exact .inr (.inr ⟨rfl, rfl⟩)

/-! ### The two loops -/

/-- A loop that writes word `j` at its turn `j` leaves the words of no turn. -/
theorem readW_foldl_writeW_of_notMem (value : WordFile → Nat → Word) {js : List Nat} {i : Nat} (h : i ∉ js)
    (w : WordFile) : readW (js.foldl (fun w j => writeW w j (value w j)) w) i = readW w i := by
  induction js generalizing w with
  | nil => rfl
  | cons j js ih =>
    rw [List.mem_cons, not_or] at h
    obtain ⟨hj, hjs⟩ := h
    rw [List.foldl_cons, ih hjs, readW_writeW_other (Ne.symm hj)]

theorem loadKey_succ (key : List Byte) (n : Nat) (w : WordFile) :
    loadKey key (n + 1) w = writeW (loadKey key n w) n (keyWord key n) := by
  simp [loadKey, List.range_succ]

/-- The first words are the key's (R108). -/
theorem readW_loadKey {key : List Byte} {n i : Nat} (hn : n ≤ 60) (hi : i < n) (w : WordFile) :
    readW (loadKey key n w) i = keyWord key i := by
  induction n with
  | zero => omega
  | succ n ih =>
    rw [loadKey_succ]
    by_cases h : i = n
    · rw [h, readW_writeW_same (by omega)]
    · rw [readW_writeW_other (Ne.symm h), ih (by omega) (by omega)]

theorem readW_loadKey_of_le {key : List Byte} {n i : Nat} (hi : n ≤ i) (w : WordFile) :
    readW (loadKey key n w) i = readW w i :=
  readW_foldl_writeW_of_notMem (fun _ j => keyWord key j) (by simpa using hi) w

/-- `TEMP` reads one word, `W[i-1]` (R109). -/
theorem scheduleTemp_congr {nk i : Nat} {w v : WordFile} (h : readW w (i - 1) = readW v (i - 1)) :
    scheduleTemp nk w i = scheduleTemp nk v i := by
  simp only [scheduleTemp, h]

/-- A write at or above the end of a schedule leaves the schedule. -/
theorem followsSchedule_writeW {nk n i : Nat} {w : WordFile} (hnk : 0 < nk) (hi : n ≤ i) (v : Word)
    (h : followsSchedule nk n w) : followsSchedule nk n (writeW w i v) := by
  intro j hj hjn
  rw [readW_writeW_other (by omega), readW_writeW_other (by omega), scheduleTemp_congr (readW_writeW_other (by omega)),
    h j hj hjn]

/-- One turn of R109's loop lengthens the schedule by one word. -/
theorem followsSchedule_expandStep {nk n : Nat} {w : WordFile} (hnk : 0 < nk) (hn : n < 60)
    (h : followsSchedule nk n w) : followsSchedule nk (n + 1) (expandStep nk w n) := by
  intro i hi hin
  by_cases hlast : i = n
  · subst hlast
    have hother : ∀ j, j ≠ i → readW (expandStep nk w i) j = readW w j := fun j hj => readW_writeW_other hj.symm
    rw [scheduleTemp_congr (hother (i - 1) (by omega)), hother (i - nk) (by omega), expandStep, readW_writeW_same hn]
  · exact followsSchedule_writeW hnk le_rfl _ h i hi (by omega)

theorem followsSchedule_foldl_expandStep {nk m : Nat} (hnk : 0 < nk) (hm : nk + m ≤ 60) (w : WordFile) :
    followsSchedule nk (nk + m) ((List.range' nk m).foldl (expandStep nk) w) := by
  induction m with
  | zero => exact fun i hi hin => absurd hin (by omega)
  | succ m ih =>
    rw [List.range'_1_concat, List.foldl_append]
    exact followsSchedule_expandStep (n := nk + m) hnk (by omega) (ih (by omega))

theorem readW_foldl_expandStep {nk m i : Nat} (h : i < nk ∨ nk + m ≤ i) (w : WordFile) :
    readW ((List.range' nk m).foldl (expandStep nk) w) i = readW w i :=
  readW_foldl_writeW_of_notMem (fun w j => readW w (j - nk) ^^^ scheduleTemp nk w j)
    (by rw [List.mem_range'_1]; omega) w

/-! ### The expanded key -/

/-- `expandKey` holds the key's schedule below `4*(Nr+1)` (R108, R109). -/
theorem expandKey_holdsSchedule {key : List Byte} (hkey : keyLengthLegal key.length = true) (w : WordFile) :
    holdsSchedule key (expandKey key w) := by
  have hnk := nkOf_of_legal hkey
  have hlength : nkOf key.length + (scheduleLength (nkOf key.length + 6) - nkOf key.length)
      = scheduleLength (nkOf key.length + 6) := by simp only [scheduleLength]; omega
  have hfits : scheduleLength (nkOf key.length + 6) ≤ 60 := by simp only [scheduleLength]; omega
  constructor
  · intro i hi
    rw [expandKey, readW_foldl_expandStep (.inl hi), readW_loadKey (by omega) hi]
  · have h := followsSchedule_foldl_expandStep (nk := nkOf key.length) (by omega) (hlength.trans_le hfits)
      (loadKey key (nkOf key.length) w)
    rwa [hlength] at h

/-- `expandKey` leaves the words from `4*(Nr+1)` up (log 19). -/
theorem readW_expandKey_of_le {key : List Byte} {i : Nat} (hi : scheduleLength (nkOf key.length + 6) ≤ i)
    (w : WordFile) : readW (expandKey key w) i = readW w i := by
  simp only [scheduleLength] at hi
  rw [expandKey, readW_foldl_expandStep (.inr (by simp only [scheduleLength]; omega)), readW_loadKey_of_le (by omega)]

/-- Two word files that hold a key's schedule agree in its words: each is the key's or follows from earlier ones. -/
theorem holdsSchedule.readW_eq {key : List Byte} {w v : WordFile} (hkey : keyLengthLegal key.length = true)
    (hw : holdsSchedule key w) (hv : holdsSchedule key v) (i : Nat)
    (hi : i < scheduleLength (nkOf key.length + 6)) : readW w i = readW v i := by
  obtain ⟨hwkey, hwrec⟩ := hw
  obtain ⟨hvkey, hvrec⟩ := hv
  have hnk := nkOf_of_legal hkey
  induction i using Nat.strong_induction_on with
  | _ i ih =>
    by_cases hfirst : i < nkOf key.length
    · rw [hwkey i hfirst, hvkey i hfirst]
    · rw [hwrec i (by omega) hi, hvrec i (by omega) hi, ih (i - nkOf key.length) (by omega) (by omega),
        scheduleTemp_congr (ih (i - 1) (by omega) (by omega))]

/-- The words of the schedule do not depend on the word file that the key is expanded into. -/
theorem readW_expandKey_eq {key : List Byte} (hkey : keyLengthLegal key.length = true) (w v : WordFile) (i : Nat)
    (hi : i < scheduleLength (nrOf key.length)) : readW (expandKey key w) i = readW (expandKey key v) i := by
  rw [nrOf_val_of_legal hkey] at hi
  exact (expandKey_holdsSchedule hkey w).readW_eq hkey (expandKey_holdsSchedule hkey v) i hi

end Sys2Proof.Machine
end

-- Proofs: what the block cipher reads of the word file (spec/10_state.md R32, spec/41_aes_round_engine.md R125)
section
-- Elaborates the proofs one after another: the check's memory limit counts a stack for each proof in the making.
set_option deprecated.oldSectionVars true
/-! Every round key lies below word `4*(NR+1)`, so encryption and decryption read no word above. -/

namespace Sys2Proof.Machine

section

variable {w v : WordFile} {nr : Nat} (h : ∀ i, i < 4 * (nr + 1) → readW w i = readW v i)
include h

/-- AddRoundKey reads the four words of its round key (R125). -/
theorem addRoundKey_congr {k : Nat} (hk : k ≤ nr) : addRoundKey w k = addRoundKey v k := by
  funext st
  have hword (c : Fin 4) : readW w (4 * k + c.val) = readW v (4 * k + c.val) := h _ (by omega)
  simp only [addRoundKey, hword]

theorem cipher_congr (b : Block) : cipher w nr b = cipher v nr b := by
  rw [cipher, cipher, addRoundKey_congr h (Nat.zero_le nr)]
  refine congrArg storeState (List.foldl_ext _ _ _ fun st rnd hrnd => ?_)
  have hle : rnd ≤ nr := by
    rw [List.mem_range'_1] at hrnd
    omega
  rw [encryptRound, encryptRound, addRoundKey_congr h hle]

theorem invCipher_congr (b : Block) : invCipher w nr b = invCipher v nr b := by
  rw [invCipher, invCipher, addRoundKey_congr h le_rfl]
  refine congrArg storeState (List.foldl_ext _ _ _ fun st rnd hrnd => ?_)
  have hle : rnd ≤ nr := by
    rw [List.mem_reverse, List.mem_range] at hrnd
    omega
  rw [decryptRound, decryptRound, addRoundKey_congr h hle]

end

/-- Settles O25: each round of either direction adds a round key that lies below word `4*(NR+1)`. -/
theorem wordsAboveTheScheduleAreUnread : Obligations.WordsAboveTheScheduleAreUnread := by
  unfold Obligations.WordsAboveTheScheduleAreUnread
  intro c d b hnr hwords
  rw [encryptBlock, encryptBlock, decryptBlock, decryptBlock, ← hnr]
  exact ⟨cipher_congr hwords b, invCipher_congr hwords b⟩

end Sys2Proof.Machine
end

-- Proofs: the constructing commands (spec/40_key_schedule.md R111, spec/45_aead_seal_open.md R201)
section
-- Elaborates the proofs one after another: the check's memory limit counts a stack for each proof in the making.
set_option deprecated.oldSectionVars true
/-! `NEWAEAD` and `EXPANDKEY` by the length of the key, and the context slot that `NEWAEAD` builds. -/

namespace Sys2Proof.Machine

/-! ### The two commands, by the key's length -/

theorem exec_newAead_of_legal {s : State} (h : keyLengthLegal s.ports.keyIn.length = true) :
    exec .newAead s = finish [] (s.withCtx ((s.ctx.withSchedule s.ports.keyIn).withHash s.params.mulStrategy)) := by
  simp only [exec, execNewAead, h, Bool.true_eq_false, if_false]

theorem exec_newAead_of_illegal {s : State} (h : keyLengthLegal s.ports.keyIn.length = false) :
    exec .newAead s = raise .invalidKeyLength s := by
  simp only [exec, execNewAead, if_pos h]

theorem exec_expandKey_of_legal {s : State} (h : keyLengthLegal s.ports.keyIn.length = true) :
    exec .expandKey s =
      finish (writeWords (expandKey s.ports.keyIn s.ctx.w) (scheduleLength (nrOf s.ports.keyIn.length)))
        (s.withCtx { s.ctx.withSchedule s.ports.keyIn with ctxValid := false }) := by
  simp only [exec, execExpandKey, h, Bool.true_eq_false, if_false, Context.withSchedule]

theorem exec_expandKey_of_illegal {s : State} (h : keyLengthLegal s.ports.keyIn.length = false) :
    exec .expandKey s = raise .invalidKeyLength s := by
  simp only [exec, execExpandKey, if_pos h]

/-! ### The slot that is built -/

/-- Deriving `H` and `M` leaves the key schedule, so the cipher. -/
@[simp] theorem encryptBlock_withHash (c : Context) (strategy : MulStrategy) :
    encryptBlock (c.withHash strategy) = encryptBlock c := by
  funext b
  simp only [encryptBlock, Context.withHash_nr, Context.withHash_w]

/-- The derived `H` is the encryption of the zero block under the slot that holds it. -/
theorem Context.withHash_h_eq_hashSubkey (c : Context) (strategy : MulStrategy) :
    (c.withHash strategy).h = hashSubkey (c.withHash strategy) := by
  rw [Context.withHash_h, hashSubkey, hashSubkey, encryptBlock_withHash]

/-- Entry `v` of row `p` of the table is the byte `v` at position `p`, times `H` (R156). -/
theorem readM_buildTable_eq_multiply (h : GF128) (p : Fin 16) (v : Byte) :
    readM (buildTable h) p v = multiply (v.setWidth 128 <<< (8 * (15 - p.val))) h := by
  simp [readM, buildTable]

/-- The hash subkey does not depend on the slot that the key is expanded into. -/
theorem hashSubkey_withSchedule_eq {key : List Byte} (hkey : keyLengthLegal key.length = true) (c d : Context) :
    hashSubkey (c.withSchedule key) = hashSubkey (d.withSchedule key) := by
  have hcipher := cipher_congr (readW_expandKey_eq hkey c.w d.w) zeroBlock
  simp only [hashSubkey, encryptBlock, Context.withSchedule_nr, Context.withSchedule_w, hcipher]

/-- Settles O22: the schedule by `expandKey_holdsSchedule`, `H` and `M` by what `withHash` derives from it. -/
theorem newAeadBuildsContext : Obligations.NewAeadBuildsContext := by
  unfold Obligations.NewAeadBuildsContext
  intro s hlength
  have hkey := keyLengthLegal_iff.mpr hlength
  refine ⟨_, exec_newAead_of_legal hkey, rfl, rfl, toNat_nk_of_legal hkey, nrOf_val_of_legal hkey,
    expandKey_holdsSchedule hkey s.ctx.w, fun i hi => readW_expandKey_of_le hi s.ctx.w,
    Context.withHash_h_eq_hashSubkey _ _, fun htable p v => ?_, fun hother => Context.withHash_m_other _ hother,
    rfl, rfl, rfl, rfl⟩
  simp only [State.withResponse_ctx, State.withCtx_ctx, Context.withHash_m_table _ htable, Context.withHash_h,
    readM_buildTable_eq_multiply]

/-- Settles O23: the key alone fixes the words of the schedule, these fix `H`, and `H` fixes `M`. -/
theorem newAeadReplacesAnyContext : Obligations.NewAeadReplacesAnyContext := by
  unfold Obligations.NewAeadReplacesAnyContext
  intro s u t v hparams hkeys hlength ht hv
  have hkey := keyLengthLegal_iff.mpr hlength
  rw [exec_newAead_of_legal hkey, finish_eq_next] at ht
  rw [exec_newAead_of_legal (hkeys ▸ hkey), finish_eq_next, ← hkeys, ← hparams] at hv
  subst ht hv
  have hsubkey := hashSubkey_withSchedule_eq hkey u.ctx s.ctx
  refine ⟨rfl, rfl, rfl, rfl, readW_expandKey_eq hkey u.ctx.w s.ctx.w, ?_, fun htable => ?_⟩
  · simp only [State.withResponse_ctx, State.withCtx_ctx, Context.withHash_h, hsubkey]
  · simp only [State.withResponse_ctx, State.withCtx_ctx, Context.withHash_m_table _ htable, hsubkey]

end Sys2Proof.Machine
end

-- Proofs: the invariant of the context slot (spec/10_state.md R22 to R24, R37)
section
-- Elaborates the proofs one after another: the check's memory limit counts a stack for each proof in the making.
set_option deprecated.oldSectionVars true
/-! The context slot is consistent at reset, the constructing commands build a consistent one, and nothing else writes
it. -/

namespace Sys2Proof.Machine

/-! ### What a command writes -/

/-- A command that answers replaces the response and the slot alone; the slot is the old one, or a constructing command
built it from a legal key (R37). -/
theorem exec_eq_next_cases {i : Instr} {s t : State} (h : exec i s = .next t) :
    ∃ c r, t = (s.withCtx c).withResponse r ∧
      (c = s.ctx ∨
        (i = .expandKey ∧ keyLengthLegal s.ports.keyIn.length = true ∧
          c = { s.ctx.withSchedule s.ports.keyIn with ctxValid := false }) ∨
        (i = .newAead ∧ keyLengthLegal s.ports.keyIn.length = true ∧
          c = (s.ctx.withSchedule s.ports.keyIn).withHash s.params.mulStrategy)) := by
  rcases exec_cases i s with ⟨f, hf⟩ | ⟨data, hd⟩ | ⟨hi, hkey, he⟩ | ⟨hi, hkey, hn⟩
  · rw [hf, raise_eq_next] at h
    exact ⟨s.ctx, _, h, .inl rfl⟩
  · rw [hd, finish_eq_next] at h
    exact ⟨s.ctx, _, h, .inl rfl⟩
  · rw [he, finish_eq_next] at h
    exact ⟨_, _, h, .inr (.inl ⟨hi, hkey, rfl⟩)⟩
  · rw [hn, finish_eq_next] at h
    exact ⟨_, _, h, .inr (.inr ⟨hi, hkey, rfl⟩)⟩

/-- Settles O12: the two commands that write the slot are the two excluded. -/
theorem onlyConstructionWritesContext : Obligations.OnlyConstructionWritesContext := by
  unfold Obligations.OnlyConstructionWritesContext
  intro i s t hnewAead hexpandKey h
  obtain ⟨c, r, rfl, hc | ⟨hi, -⟩ | ⟨hi, -⟩⟩ := exec_eq_next_cases h
  · exact hc
  · exact absurd hi hexpandKey
  · exact absurd hi hnewAead

/-! ### Consistent slots -/

/-- A slot with no flag set promises nothing. -/
theorem Context.consistent_of_no_flags {c : Context} (hks : c.ksValid = false) (hctx : c.ctxValid = false)
    (strategy : MulStrategy) : c.consistent strategy :=
  ⟨fun h => absurd (hks.symm.trans h) Bool.false_ne_true, fun h => absurd (hctx.symm.trans h) Bool.false_ne_true⟩

/-- What `KS_VALID` promises holds once a legal key has been expanded. -/
theorem Context.withSchedule_meets_ksValid {key : List Byte} (hkey : keyLengthLegal key.length = true) (c : Context) :
    legalSizes (c.withSchedule key).nk (c.withSchedule key).nr ∧
      followsSchedule (c.withSchedule key).nk.toNat (scheduleLength (c.withSchedule key).nr)
        (c.withSchedule key).w := by
  obtain ⟨-, hrec⟩ := expandKey_holdsSchedule hkey c.w
  rw [Context.withSchedule_nk, Context.withSchedule_nr, Context.withSchedule_w, toNat_nk_of_legal hkey,
    nrOf_val_of_legal hkey]
  exact ⟨legalSizes_of_legal hkey, hrec⟩

/-- The slot after `EXPANDKEY`, whose `H` and `M` may be stale, is consistent: `CTX_VALID` is clear (R271). -/
theorem Context.expandKey_consistent {key : List Byte} (hkey : keyLengthLegal key.length = true) (c : Context)
    (strategy : MulStrategy) : Context.consistent { c.withSchedule key with ctxValid := false } strategy :=
  ⟨fun _ => c.withSchedule_meets_ksValid hkey, fun h => absurd h Bool.false_ne_true⟩

/-- The slot after `NEWAEAD` is consistent under the strategy that built it. -/
theorem Context.newAead_consistent {key : List Byte} (hkey : keyLengthLegal key.length = true) (c : Context)
    (strategy : MulStrategy) : ((c.withSchedule key).withHash strategy).consistent strategy := by
  refine ⟨fun _ => c.withSchedule_meets_ksValid hkey, fun _ => ⟨rfl, withHash_h_eq_hashSubkey _ _, fun htable => ?_⟩⟩
  rw [Context.withHash_m_table _ htable, Context.withHash_h]

theorem Context.reset_consistent (strategy : MulStrategy) : Context.reset.consistent strategy :=
  Context.consistent_of_no_flags rfl rfl strategy

/-- Every command keeps the slot consistent. -/
theorem State.consistent_of_exec {i : Instr} {s t : State} (hs : s.consistent) (h : exec i s = .next t) :
    t.consistent := by
  obtain ⟨c, r, rfl, rfl | ⟨-, hkey, rfl⟩ | ⟨-, hkey, rfl⟩⟩ := exec_eq_next_cases h
  · exact hs
  · exact s.ctx.expandKey_consistent hkey _
  · exact s.ctx.newAead_consistent hkey _

/-- Settles O2: reset clears both flags. -/
theorem resetContextIsConsistent : Obligations.ResetContextIsConsistent := by
  unfold Obligations.ResetContextIsConsistent
  exact ⟨Context.reset_consistent _, fun p => Context.reset_consistent p.mulStrategy⟩

/-- Settles O3: idling, a reserved word and accepting a command leave the slot, the reset move clears its flags, and a
command keeps it consistent. -/
theorem stepKeepsContextConsistent : Obligations.StepKeepsContextConsistent := by
  unfold Obligations.StepKeepsContextConsistent
  intro s t hs hstep
  rcases step_cases hstep with ⟨-, rfl⟩ | ⟨rest, -, rfl⟩ | ⟨r, rest, -, rfl⟩ | ⟨r, rest, i, -, -, hexec⟩
  · exact hs
  · exact Context.reset_consistent _
  · exact hs
  · have haccepted : (accept r rest s).consistent := hs
    exact State.consistent_of_exec haccepted hexec

end Sys2Proof.Machine
end

-- Proofs: what an answer depends on (spec/10_state.md R38, R40, R41)
section
-- Elaborates the proofs one after another: the check's memory limit counts a stack for each proof in the making.
set_option deprecated.oldSectionVars true
/-! Two engines answer the same when they agree in what the command reads: the slot, the parameters and the operands,
and of the slot only the flags where both are 0. -/

namespace Sys2Proof.Machine

/-- Two outcomes are next states with the same response, and their context slots are related. -/
def AnswersSame (R : Context → Context → Prop) (o p : Host.Outcome State Fault Refusal) : Prop :=
  ∃ t v, o = .next t ∧ p = .next v ∧ v.response = t.response ∧ R v.ctx t.ctx

section

variable {R : Context → Context → Prop} {s u : State}

theorem finish_answersSame (h : R u.ctx s.ctx) (data : List Byte) :
    AnswersSame R (finish data s) (finish data u) :=
  ⟨_, _, rfl, rfl, rfl, h⟩

theorem raise_answersSame (h : R u.ctx s.ctx) (f : Failure) : AnswersSame R (raise f s) (raise f u) :=
  ⟨_, _, rfl, rfl, rfl, h⟩

theorem AnswersSame.exists_next {i : Instr} {t : State} (h : AnswersSame R (exec i s) (exec i u))
    (hexec : exec i s = .next t) : ∃ v, exec i u = .next v ∧ v.response = t.response ∧ R v.ctx t.ctx := by
  obtain ⟨t', v, ht', hv, hresponse, hctx⟩ := h
  obtain rfl : t' = t := by simpa [hexec, eq_comm] using ht'
  exact ⟨v, hv, hresponse, hctx⟩

end

/-! ### The response and the host's moves are not read -/

section

variable {s u : State} (hctx : s.ctx = u.ctx) (hparams : s.params = u.params) (hports : s.ports = u.ports)
include hctx hports

theorem sealEntry_congr : sealEntry s = sealEntry u := by rw [sealEntry, sealEntry, hctx, hports]

theorem openEntry_congr : openEntry s = openEntry u := by rw [openEntry, openEntry, hctx, hports]

theorem blockEntry_congr : blockEntry s = blockEntry u := by rw [blockEntry, blockEntry, hctx, hports]

include hparams

/-- States that agree in the slot, the parameters and the operands take the same branch of every command, with the same
data and the same slot (R38). -/
theorem exec_answersSame (i : Instr) : AnswersSame Eq (exec i s) (exec i u) := by
  have hslot := hctx.symm
  cases i with
  | newAead =>
    simp only [exec, execNewAead, hctx, hparams, hports]
    split
    · exact raise_answersSame hslot _
    · exact finish_answersSame (by rfl) _
  | sealMessage =>
    simp only [exec, execSealMessage, sealEntry_congr hctx hports, hctx, hparams, hports]
    split
    · exact raise_answersSame hslot _
    · exact finish_answersSame hslot _
  | openMessage =>
    simp only [exec, execOpenMessage, openEntry_congr hctx hports, hctx, hparams, hports]
    split
    · exact raise_answersSame hslot _
    · split
      · exact raise_answersSame hslot _
      · exact finish_answersSame hslot _
  | nonceSize => exact finish_answersSame hslot _
  | overhead => exact finish_answersSame hslot _
  | expandKey =>
    simp only [exec, execExpandKey, hctx, hports]
    split
    · exact raise_answersSame hslot _
    · exact finish_answersSame (by rfl) _
  | encryptBlock =>
    simp only [exec, execEncryptBlock, blockEntry_congr hctx hports, hctx, hports]
    split
    · exact raise_answersSame hslot _
    · exact finish_answersSame hslot _
  | decryptBlock =>
    simp only [exec, execDecryptBlock, blockEntry_congr hctx hports, hctx, hparams, hports]
    split
    · exact raise_answersSame hslot _
    · split
      · exact raise_answersSame hslot _
      · exact finish_answersSame hslot _
  | gfmul =>
    simp only [exec, execGfmul, hparams, hports]
    exact finish_answersSame hslot _
  | ghash =>
    simp only [exec, execGhash, hctx, hparams, hports]
    split
    · exact raise_answersSame hslot _
    · exact finish_answersSame hslot _
  | cipherBlocks =>
    simp only [exec, execCipherBlocks, hctx, hports]
    split
    · exact raise_answersSame hslot _
    · exact finish_answersSame hslot _

end

/-- Settles O15: by cases on the command. -/
theorem answerDependsOnContextAndOperands : Obligations.AnswerDependsOnContextAndOperands := by
  unfold Obligations.AnswerDependsOnContextAndOperands
  intro i s u t hctx hparams hports hexec
  exact (exec_answersSame hctx hparams hports i).exists_next hexec

/-! ### Without a flag, the registers are not read -/

/-- A command that is present and whose flag is clear fails with `NoContext`, before it reads anything else (R235). -/
theorem exec_of_not_readyFor {i : Instr} {s : State} (hready : ¬ s.ctx.readyFor i)
    (hpresent : i = .decryptBlock → s.params.hasInvCipher = true) : exec i s = raise .noContext s := by
  cases i with
  | newAead | nonceSize | overhead | expandKey | gfmul => exact absurd trivial hready
  | sealMessage => simp only [exec, execSealMessage, sealEntry, Bool.eq_false_of_not_eq_true hready, if_true]
  | openMessage => simp only [exec, execOpenMessage, openEntry, Bool.eq_false_of_not_eq_true hready, if_true]
  | encryptBlock => simp only [exec, execEncryptBlock, blockEntry, Bool.eq_false_of_not_eq_true hready, if_true]
  | decryptBlock =>
    simp only [exec, execDecryptBlock, blockEntry, Bool.eq_false_of_not_eq_true hready, hpresent rfl,
      Bool.true_eq_false, if_true, if_false]
  | ghash => simp only [exec, execGhash, Bool.eq_false_of_not_eq_true hready, if_true]
  | cipherBlocks => simp only [exec, execCipherBlocks, Bool.eq_false_of_not_eq_true hready, if_true]

/-- The output of `EXPANDKEY` reads the words that it writes. -/
theorem writeWords_congr {w v : WordFile} {n : Nat} (h : ∀ i, i < n → readW w i = readW v i) :
    writeWords w n = writeWords v n := by
  refine List.foldl_ext _ _ _ fun out i hi => ?_
  rw [h i (List.mem_range.mp hi)]

section

variable {s u : State} (hports : s.ports = u.ports)
include hports

/-- `NEWAEAD` answers by the key's length alone. -/
theorem newAead_answersSame : AnswersSame (fun _ _ => True) (exec .newAead s) (exec .newAead u) := by
  cases hkey : keyLengthLegal s.ports.keyIn.length with
  | false =>
    rw [exec_newAead_of_illegal hkey, exec_newAead_of_illegal (hports ▸ hkey)]
    exact raise_answersSame trivial _
  | true =>
    rw [exec_newAead_of_legal hkey, exec_newAead_of_legal (hports ▸ hkey)]
    exact finish_answersSame trivial _

/-- `EXPANDKEY` answers the words of the key's schedule, whatever the slot held. -/
theorem expandKey_answersSame : AnswersSame (fun _ _ => True) (exec .expandKey s) (exec .expandKey u) := by
  cases hkey : keyLengthLegal s.ports.keyIn.length with
  | false =>
    rw [exec_expandKey_of_illegal hkey, exec_expandKey_of_illegal (hports ▸ hkey)]
    exact raise_answersSame trivial _
  | true =>
    rw [exec_expandKey_of_legal hkey, exec_expandKey_of_legal (hports ▸ hkey), ← hports,
      writeWords_congr (readW_expandKey_eq hkey s.ctx.w u.ctx.w)]
    exact finish_answersSame trivial _

end

/-- The flags alone decide whether a command may go on. -/
theorem readyFor_congr {c d : Context} (hks : c.ksValid = d.ksValid) (hctx : c.ctxValid = d.ctxValid) (i : Instr) :
    c.readyFor i ↔ d.readyFor i := by
  cases i <;> simp only [Context.readyFor, hks, hctx]

/-- A command whose flag is clear in both states fails alike in both. -/
theorem answersSame_of_not_readyFor {s u : State} {i : Instr} (hparams : s.params = u.params)
    (hs : ¬ s.ctx.readyFor i) (hu : ¬ u.ctx.readyFor i) : AnswersSame (fun _ _ => True) (exec i s) (exec i u) := by
  by_cases hpresent : i = .decryptBlock → s.params.hasInvCipher = true
  · rw [exec_of_not_readyFor hs hpresent, exec_of_not_readyFor hu (hparams ▸ hpresent)]
    exact raise_answersSame trivial _
  · obtain ⟨rfl, habsent⟩ := Classical.not_imp.mp hpresent
    have hoption := Bool.eq_false_of_not_eq_true habsent
    rw [exec_decryptBlock_of_no_invCipher hoption, exec_decryptBlock_of_no_invCipher (hparams ▸ hoption)]
    exact raise_answersSame trivial _

/-- While both flags are 0 in two states, a command that needs a flag fails in both, and the others answer from the
parameters and the operands. -/
theorem answersSame_of_no_flags {s u : State} (hsks : s.ctx.ksValid = false) (hsctx : s.ctx.ctxValid = false)
    (huks : u.ctx.ksValid = false) (huctx : u.ctx.ctxValid = false) (hparams : s.params = u.params)
    (hports : s.ports = u.ports) (i : Instr) : AnswersSame (fun _ _ => True) (exec i s) (exec i u) := by
  by_cases hready : s.ctx.readyFor i
  · cases i with
    | newAead => exact newAead_answersSame hports
    | expandKey => exact expandKey_answersSame hports
    | nonceSize | overhead => exact finish_answersSame trivial _
    | gfmul =>
      simp only [exec, execGfmul, hparams, hports]
      exact finish_answersSame trivial _
    | sealMessage | openMessage | ghash => exact absurd (hsctx.symm.trans hready) Bool.false_ne_true
    | encryptBlock | decryptBlock | cipherBlocks => exact absurd (hsks.symm.trans hready) Bool.false_ne_true
  · have hflags := readyFor_congr (hsks.trans huks.symm) (hsctx.trans huctx.symm) i
    exact answersSame_of_not_readyFor hparams hready (hflags.not.mp hready)

/-- Settles O17: the answers agree by `answersSame_of_no_flags`, whatever the slots hold. -/
theorem unwrittenRegistersAreNeverRead : Obligations.UnwrittenRegistersAreNeverRead := by
  unfold Obligations.UnwrittenRegistersAreNeverRead
  intro i s u t hsks hsctx huks huctx hparams hports hexec
  obtain ⟨v, hv, hresponse, -⟩ :=
    (answersSame_of_no_flags hsks hsctx huks huctx hparams hports i).exists_next hexec
  exact ⟨v, hv, hresponse⟩

end Sys2Proof.Machine
end

-- Proofs: what no command writes (spec/20_memory.md R67, R68; spec/00_scope.md R25)
section
-- Elaborates the proofs one after another: the check's memory limit counts a stack for each proof in the making.
set_option deprecated.oldSectionVars true
/-! A command replaces the response and the context slot, and nothing else of the state. -/

namespace Sys2Proof.Machine

/-- Settles O13: the state that answers is the old one with another slot and another response. -/
theorem noCommandWritesItsInputs : Obligations.NoCommandWritesItsInputs := by
  unfold Obligations.NoCommandWritesItsInputs
  intro i s t h
  obtain ⟨c, r, rfl, -⟩ := exec_eq_next_cases h
  simp only [State.withResponse_ports, State.withCtx_ports, State.withResponse_params, State.withCtx_params,
    State.withResponse_host, State.withCtx_host, and_self]

end Sys2Proof.Machine
end

-- Proofs: big-endian bytes of values put together, and the initial counter block (spec/20_memory.md R56, R57, R60)
section
-- Elaborates the proofs one after another: the check's memory limit counts a stack for each proof in the making.
set_option deprecated.oldSectionVars true
/-! `bytesBe` undoes `beValue` and turns the concatenation of words into the concatenation of their bytes, so the bytes
of an element that is put together from words are read off part by part. -/

namespace Sys2Proof.Machine

theorem getElem_bytesBe {w : Nat} (v : BitVec w) {n i : Nat} (h : i < (bytesBe v n).length) :
    (bytesBe v n)[i] = v.extractLsb' (8 * (n - 1 - i)) 8 := by
  simp only [bytesBe, List.getElem_map, List.getElem_range]

/-- The bytes of a block are those of its element, big-endian (R57). -/
theorem blockOfElement_toList (e : GF128) : (blockOfElement e).toList = bytesBe e 16 := by
  refine List.ext_getElem (by rw [Vector.length_toList, bytesBe_length]) fun i hi _ => ?_
  rw [Vector.getElem_toList, getElem_blockOfElement, getElem_bytesBe]

/-- The bytes of two words side by side are the bytes of the first, then those of the second. -/
theorem bytesBe_append {w v m n : Nat} (hv : v = 8 * n) (x : BitVec w) (y : BitVec v) :
    bytesBe (x ++ y) (m + n) = bytesBe x m ++ bytesBe y n := by
  subst hv
  refine List.ext_getElem (by simp) fun i hi _ => ?_
  rw [bytesBe_length] at hi
  rw [getElem_bytesBe, List.getElem_append]
  split
  · next him =>
    rw [bytesBe_length] at him
    rw [getElem_bytesBe, show 8 * (m + n - 1 - i) = 8 * n + 8 * (m - 1 - i) by omega]
    ext j hj
    simp [BitVec.getElem_extractLsb', BitVec.getLsbD_append, Nat.add_assoc]
  · next him =>
    rw [bytesBe_length] at him
    simp only [getElem_bytesBe, bytesBe_length]
    rw [show n - 1 - (i - m) = m + n - 1 - i by omega]
    ext j hj
    simp [BitVec.getElem_extractLsb', BitVec.getLsbD_append, show 8 * (m + n - 1 - i) + j < 8 * n by omega]

/-- The bytes of an element are those of its halves, high half first (R57). -/
theorem bytesBe_elementOfHalves (high low : Half) :
    bytesBe (elementOfHalves high low) 16 = bytesBe high 8 ++ bytesBe low 8 :=
  bytesBe_append (m := 8) (n := 8) rfl high low

/-- Bytes to a value wide enough for them, and back (R12). -/
theorem bytesBe_beValue {w n : Nat} {bs : List Byte} (hlen : bs.length = n) (hw : 8 * n ≤ w) :
    bytesBe (beValue w bs) n = bs := by
  subst hlen
  refine List.ext_getElem (bytesBe_length _ _) fun i _ hi => ?_
  rw [getElem_bytesBe]
  ext j hj
  have hbyte : (8 * (bs.length - 1 - i) + j) / 8 = bs.length - 1 - i := by omega
  have hbit : (8 * (bs.length - 1 - i) + j) % 8 = j := by omega
  rw [BitVec.getElem_extractLsb', getLsbD_beValue, hbyte, hbit, List.getD_eq_getElem?_getD,
    List.getElem?_reverse (by omega), show bs.length - 1 - (bs.length - 1 - i) = i by omega,
    List.getElem?_eq_getElem hi, Option.getD_some, decide_eq_true (by omega), Bool.true_and,
    BitVec.getLsbD_eq_getElem hj]

/-- The low half of the initial counter block is the last word of the nonce, then the word 1 (R60). -/
theorem setWidth_shiftLeft_or_one (x : Word) : x.setWidth 64 <<< 32 ||| 0x00000001 = x ++ 1#32 := by
  rw [BitVec.append_def, BitVec.shiftLeftZeroExtend_eq]
  congr 1

/-- Settles O44: the counter block is put together from the nonce's first eight bytes, its last four, and the word 1. -/
theorem counterBlockIsNonceThenOne : Obligations.CounterBlockIsNonceThenOne := by
  unfold Obligations.CounterBlockIsNonceThenOne
  intro nonce hlen
  have hhigh : bytesBe (beValue 64 (memRead nonce 0 8)) 8 = memRead nonce 0 8 :=
    bytesBe_beValue (memRead_length (by omega)) (by omega)
  have hword : bytesBe (beValue 32 (memRead nonce 8 4)) 4 = memRead nonce 8 4 :=
    bytesBe_beValue (memRead_length (by omega)) (by omega)
  have hone : bytesBe 1#32 4 = [0, 0, 0, 1] := by decide
  have hlow : bytesBe (beValue 32 (memRead nonce 8 4) ++ 1#32) 8 = memRead nonce 8 4 ++ [0, 0, 0, 1] :=
    (bytesBe_append (m := 4) (n := 4) rfl _ _).trans (by rw [hword, hone])
  have hparts : memRead nonce 0 8 ++ memRead nonce 8 4 = nonce := by
    have hend : (nonce.drop 8).length ≤ 4 := by rw [List.length_drop, hlen]
    rw [memRead, memRead, List.drop_zero, List.take_of_length_le hend, List.take_append_drop]
  calc (blockOfElement (makeICB nonce)).toList
      = bytesBe (beValue 64 (memRead nonce 0 8)) 8 ++ bytesBe (beValue 32 (memRead nonce 8 4) ++ 1#32) 8 := by
        rw [blockOfElement_toList, makeICB, bytesBe_elementOfHalves, setWidth_shiftLeft_or_one]
    _ = memRead nonce 0 8 ++ (memRead nonce 8 4 ++ [0, 0, 0, 1]) := by
        rw [hhigh, hlow]
    _ = nonce ++ [0, 0, 0, 1] := by rw [← List.append_assoc, hparts]

end Sys2Proof.Machine
end

-- Proofs: GHASH of padded data and of data put together, and the tag (spec/43_ghash.md R181, spec/20_memory.md R65)
section
-- Elaborates the proofs one after another: the check's memory limit counts a stack for each proof in the making.
set_option deprecated.oldSectionVars true
/-! GHASH reads its data in blocks of 16 bytes with zeros after the end. So zeros up to the next multiple of 16 are
invisible to it, and data that fills its blocks may be hashed first, and what follows from the accumulator it leaves. -/

namespace Sys2Proof.Machine

/-! ### Blocks of appended data -/

/-- A padded read depends on the sixteen bytes that it reads. -/
theorem memReadPad_congr {a b : List Byte} {off off' : Nat}
    (h : ∀ j, j < 16 → a.getD (off + j) 0 = b.getD (off' + j) 0) : memReadPad a off = memReadPad b off' := by
  refine Vector.ext fun j hj => ?_
  rw [memReadPad_get, memReadPad_get, h j hj]

theorem memReadPad_append_left {d : List Byte} {off : Nat} (h : off + 16 ≤ d.length) (e : List Byte) :
    memReadPad (d ++ e) off = memReadPad d off :=
  memReadPad_congr fun j hj => List.getD_append _ _ _ _ (by omega)

theorem memReadPad_append_right (d e : List Byte) (off : Nat) :
    memReadPad (d ++ e) (d.length + off) = memReadPad e off :=
  memReadPad_congr fun j _ => by
    rw [List.getD_append_right _ _ _ _ (by omega), show d.length + off + j - d.length = off + j by omega]

/-- Zeros after the end of the data change no padded read (R54). -/
theorem memReadPad_append_zeros (d : List Byte) (k off : Nat) :
    memReadPad (d ++ List.replicate k 0) off = memReadPad d off :=
  memReadPad_congr fun j _ => by
    rcases Nat.lt_or_ge (off + j) d.length with h | h
    · exact List.getD_append _ _ _ _ h
    · rw [List.getD_append_right _ _ _ _ h, List.getD_eq_default _ _ h, List.getD_eq_getElem?_getD,
        List.getElem?_getD_replicate_default_eq]

theorem nblocks_mul_add (k n : Nat) : nblocks (16 * k + n) = k + nblocks n := by
  unfold nblocks
  omega

@[simp] theorem pad16_length (bs : List Byte) : (pad16 bs).length = 16 * nblocks bs.length := by
  rw [pad16, List.length_append, List.length_replicate, Nat.add_sub_of_le (le_nblocks_mul _)]

/-! ### GHASH -/

/-- Data that fills `k` blocks is hashed first, and what follows from the accumulator that it leaves (R181). -/
theorem ghash_append {d : List Byte} {k : Nat} (hd : d.length = 16 * k) (strategy : MulStrategy) (c : Context)
    (e : List Byte) (a : GF128) : ghash strategy c (d ++ e) a = ghash strategy c e (ghash strategy c d a) := by
  have hfirst : ∀ acc, ∀ i ∈ List.range k, ghashStep strategy c (d ++ e) acc i = ghashStep strategy c d acc i := by
    intro acc i hi
    rw [List.mem_range] at hi
    rw [ghashStep, ghashStep, memReadPad_append_left (by omega)]
  have hrest : ∀ acc i, ghashStep strategy c (d ++ e) acc (k + i) = ghashStep strategy c e acc i := by
    intro acc i
    rw [ghashStep, ghashStep, Nat.mul_add, ← hd, memReadPad_append_right]
  have hblocks : nblocks d.length = k := by rw [hd]; exact nblocks_mul_add k 0
  rw [ghash, List.length_append, hd, nblocks_mul_add, List.range_add, List.foldl_append, List.foldl_map,
    List.foldl_ext _ _ _ hfirst]
  simp only [hrest]
  rw [ghash, ghash, hblocks]

/-- Zeros that begin no block are invisible to GHASH (R54, R181). -/
theorem ghash_append_zeros {d : List Byte} {k : Nat} (hk : d.length + k ≤ 16 * nblocks d.length)
    (strategy : MulStrategy) (c : Context) (a : GF128) :
    ghash strategy c (d ++ List.replicate k 0) a = ghash strategy c d a := by
  have hblocks : nblocks (d.length + k) = nblocks d.length := by
    unfold nblocks at *
    omega
  have hstep : ghashStep strategy c (d ++ List.replicate k 0) = ghashStep strategy c d := by
    funext acc i
    rw [ghashStep, ghashStep, memReadPad_append_zeros]
  rw [ghash, ghash, List.length_append, List.length_replicate, hblocks, hstep]

/-- Padded data is hashed as the data, and what follows from the accumulator that it leaves (R65, R181). -/
theorem ghash_pad16_append (strategy : MulStrategy) (c : Context) (d e : List Byte) (a : GF128) :
    ghash strategy c (pad16 d ++ e) a = ghash strategy c e (ghash strategy c d a) := by
  rw [ghash_append (pad16_length d), pad16, ghash_append_zeros (by have := le_nblocks_mul d.length; omega)]

/-- Settles O56: the three GHASH calls of the tag are one over the parts, each padded alone; the length block, put
together from the two bit lengths, needs no padding. -/
theorem tagIsOneGhashOverPaddedParts : Obligations.TagIsOneGhashOverPaddedParts := by
  unfold Obligations.TagIsOneGhashOverPaddedParts
  intro strategy c eky0 aad ct
  rw [computeTag, gfAdd, lengthBlock, bytesBe_elementOfHalves, List.append_assoc, ghash_pad16_append,
    ghash_pad16_append]

end Sys2Proof.Machine
end

-- Proofs: what a response carries (spec/30_encoding.md R85, spec/60_exceptions.md R236)
section
-- Elaborates the proofs one after another: the check's memory limit counts a stack for each proof in the making.
set_option deprecated.oldSectionVars true
/-! A command's response is a failure response, with no data, or a success response, whose length counts its data. -/

namespace Sys2Proof.Machine

/-- Every command, in every state, ends with a failure response or a success response. -/
theorem exec_exists_response (i : Instr) (s : State) :
    ∃ t r, exec i s = .next t ∧ t.response = some r ∧
      ((∃ f, r = failedResponse f) ∨ ∃ data, r = okResponse data) := by
  rcases exec_cases i s with ⟨f, h⟩ | ⟨data, h⟩ | ⟨-, -, h⟩ | ⟨-, -, h⟩
  · exact ⟨_, _, h, rfl, .inl ⟨f, rfl⟩⟩
  · exact ⟨_, _, h, rfl, .inr ⟨data, rfl⟩⟩
  · exact ⟨_, _, h, rfl, .inr ⟨_, rfl⟩⟩
  · exact ⟨_, _, h, rfl, .inr ⟨_, rfl⟩⟩

/-- The response of a command that has ended is the one of `exec_exists_response`. -/
theorem response_cases {i : Instr} {s t : State} {r : Response} (h : exec i s = .next t) (hr : t.response = some r) :
    (∃ f, r = failedResponse f) ∨ ∃ data, r = okResponse data := by
  obtain ⟨t', r', h', hr', hcases⟩ := exec_exists_response i s
  obtain rfl : t' = t := by simpa [h, eq_comm] using h'
  obtain rfl : r' = r := by simpa [hr, eq_comm] using hr'
  exact hcases

/-- Settles O10: a response that is not `OK` is a failure response. -/
theorem everyCommandAnswersOneResponse : Obligations.EveryCommandAnswersOneResponse := by
  unfold Obligations.EveryCommandAnswersOneResponse
  intro i s
  obtain ⟨t, r, h, hr, ⟨f, rfl⟩ | ⟨data, rfl⟩⟩ := exec_exists_response i s
  · exact ⟨t, _, h, hr, fun _ => ⟨failedResponse_outLen f, failedResponse_dataOut f⟩⟩
  · exact ⟨t, _, h, hr, fun hne => absurd (okResponse_status data) hne⟩

/-- Settles O18: both kinds of response count their data, and the failure response has none. -/
theorem outLenCountsTheData : Obligations.OutLenCountsTheData := by
  unfold Obligations.OutLenCountsTheData
  intro i s t r h hr hlt
  rcases response_cases h hr with ⟨f, rfl⟩ | ⟨data, rfl⟩
  · rw [failedResponse_outLen, failedResponse_dataOut]
    rfl
  · rw [okResponse_dataOut] at hlt
    rw [okResponse_outLen, okResponse_dataOut, outLenOf_of_lt hlt, BitVec.toNat_ofNat, Nat.mod_eq_of_lt hlt]

end Sys2Proof.Machine
end

-- Proofs: the commands that succeed (spec/30_encoding.md R83, spec/45_aead_seal_open.md R202)
section
-- Elaborates the proofs one after another: the check's memory limit counts a stack for each proof in the making.
set_option deprecated.oldSectionVars true
/-! One equation per command for the branch behind its entry checks, and that legal operands reach it. -/

namespace Sys2Proof.Machine

theorem exec_sealMessage_of_entry {s : State} (h : sealEntry s = none) :
    exec .sealMessage s =
      finish (sealOutput s.params.mulStrategy s.ctx s.ports.nonceIn s.ports.dataIn s.ports.aadIn) s := by
  simp only [exec, execSealMessage, h]

theorem exec_encryptBlock_of_entry {s : State} (h : blockEntry s = none) :
    exec .encryptBlock s =
      finish (memWrite [] 0 (encryptBlock s.ctx (blockOfBytes (memRead s.ports.dataIn 0 16))).toList) s := by
  simp only [exec, execEncryptBlock, h]

theorem exec_decryptBlock_of_entry {s : State} (hpresent : s.params.hasInvCipher = true) (h : blockEntry s = none) :
    exec .decryptBlock s =
      finish (memWrite [] 0 (decryptBlock s.ctx (blockOfBytes (memRead s.ports.dataIn 0 16))).toList) s := by
  simp only [exec, execDecryptBlock, hpresent, Bool.true_eq_false, if_false, h]

theorem exec_ghash_of_ctxValid {s : State} (h : s.ctx.ctxValid = true) :
    exec .ghash s =
      finish (memWrite [] 0
        (blockOfElement (ghash s.params.mulStrategy s.ctx s.ports.dataIn (elementOfBlock s.ports.xIn))).toList) s := by
  simp only [exec, execGhash, h, Bool.true_eq_false, if_false]

theorem exec_cipherBlocks_of_ksValid {s : State} (h : s.ctx.ksValid = true) :
    exec .cipherBlocks s =
      finish (memWrite [] 0 (cipherBlocks s.ctx (elementOfBlock s.ports.xIn) s.ports.dataIn)) s := by
  simp only [exec, execCipherBlocks, h, Bool.true_eq_false, if_false]

/-- With a valid context, the operand lengths that `SEAL` accepts are those that pass its entry checks. -/
theorem sealEntry_of_wellFormedFor {s : State} (hready : s.ctx.ctxValid = true)
    (hports : s.ports.wellFormedFor .sealMessage = true) : sealEntry s = none := by
  simp only [Operands.wellFormedFor, Bool.and_eq_true, decide_eq_true_eq] at hports
  obtain ⟨⟨hnonce, hdata⟩, haad⟩ := hports
  exact sealEntry_eq_none.mpr ⟨hready, hnonce, hdata, haad⟩

/-- A command other than `OPEN` that is present, has its flag and operands of legal lengths, passes its checks. -/
theorem exec_eq_finish_of_legal {i : Instr} {s : State} (hpresent : i.wellFormed s.params = true)
    (hports : s.ports.wellFormedFor i = true) (hready : s.ctx.readyFor i) (hopen : i ≠ .openMessage) :
    ∃ data u, exec i s = finish data u := by
  cases i with
  | newAead => exact ⟨_, _, exec_newAead_of_legal hports⟩
  | expandKey => exact ⟨_, _, exec_expandKey_of_legal hports⟩
  | sealMessage => exact ⟨_, _, exec_sealMessage_of_entry (sealEntry_of_wellFormedFor hready hports)⟩
  | openMessage => exact absurd rfl hopen
  | encryptBlock =>
    have hentry := blockEntry_eq_none.mpr ⟨hready, of_decide_eq_true hports⟩
    exact ⟨_, _, exec_encryptBlock_of_entry hentry⟩
  | decryptBlock =>
    have hentry := blockEntry_eq_none.mpr ⟨hready, of_decide_eq_true hports⟩
    exact ⟨_, _, exec_decryptBlock_of_entry hpresent hentry⟩
  | ghash => exact ⟨_, _, exec_ghash_of_ctxValid hready⟩
  | cipherBlocks => exact ⟨_, _, exec_cipherBlocks_of_ksValid hready⟩
  | nonceSize | overhead | gfmul => exact ⟨_, _, rfl⟩

/-- Settles O14: a command that finishes answers `OK`. -/
theorem commandsSucceedOnLegalOperands : Obligations.CommandsSucceedOnLegalOperands := by
  unfold Obligations.CommandsSucceedOnLegalOperands
  intro i s hpresent hports hready hopen
  obtain ⟨data, u, h⟩ := exec_eq_finish_of_legal hpresent hports hready hopen
  exact ⟨_, _, h, State.withResponse_response u _, okResponse_status data⟩

end Sys2Proof.Machine
end

-- Proofs: the operands that a command lists (spec/30_encoding.md R81, R83)
section
-- Elaborates the proofs one after another: the check's memory limit counts a stack for each proof in the making.
set_option deprecated.oldSectionVars true
/-! A command reads the operands that it lists and no others. -/

namespace Sys2Proof.Machine

section

variable {R : Context → Context → Prop} {o o' p p' : Host.Outcome State Fault Refusal}

/-- Both take the same branch of a test. -/
theorem ite_answersSame (c : Prop) [Decidable c] (h : AnswersSame R o p) (h' : AnswersSame R o' p') :
    AnswersSame R (if c then o else o') (if c then p else p') := by
  split
  · exact h
  · exact h'

/-- Both fail the entry checks alike, or both go on. -/
theorem entry_answersSame {s u : State} (e : Option Failure) (hctx : R u.ctx s.ctx) (h : AnswersSame R o p) :
    AnswersSame R (match e with | some f => raise f s | none => o)
      (match e with | some f => raise f u | none => p) := by
  cases e with
  | some f => exact raise_answersSame hctx f
  | none => exact h

end

section

variable {s u : State} (hctx : s.ctx = u.ctx) (hparams : s.params = u.params)
include hctx

theorem sealEntry_congr_of_agreeFor (hagree : Operands.agreeFor s.ports u.ports .sealMessage) :
    sealEntry s = sealEntry u := by
  obtain ⟨hnonce, hdata, haad⟩ := hagree
  rw [sealEntry, sealEntry, hctx, hnonce, hdata, haad]

theorem openEntry_congr_of_agreeFor (hagree : Operands.agreeFor s.ports u.ports .openMessage) :
    openEntry s = openEntry u := by
  obtain ⟨hnonce, hdata, haad⟩ := hagree
  rw [openEntry, openEntry, hctx, hnonce, hdata, haad]

theorem blockEntry_congr_of_dataIn (hdata : s.ports.dataIn = u.ports.dataIn) : blockEntry s = blockEntry u := by
  rw [blockEntry, blockEntry, hctx, hdata]

include hparams

/-- States that agree in the slot, the parameters and the operands that the command lists take the same branch of it,
with the same data and the same slot. -/
theorem exec_answersSame_of_agreeFor {i : Instr} (hagree : Operands.agreeFor s.ports u.ports i) :
    AnswersSame Eq (exec i s) (exec i u) := by
  have hslot := hctx.symm
  have hfinish := finish_answersSame (R := Eq) hslot
  have hraise := raise_answersSame (R := Eq) hslot
  cases i with
  | newAead =>
    have hkey : s.ports.keyIn = u.ports.keyIn := hagree
    simp only [exec, execNewAead, hctx, hparams, hkey]
    exact ite_answersSame _ (hraise _) (finish_answersSame (by rfl) _)
  | expandKey =>
    have hkey : s.ports.keyIn = u.ports.keyIn := hagree
    simp only [exec, execExpandKey, hctx, hkey]
    exact ite_answersSame _ (hraise _) (finish_answersSame (by rfl) _)
  | sealMessage =>
    have hentry := sealEntry_congr_of_agreeFor hctx hagree
    obtain ⟨hnonce, hdata, haad⟩ := hagree
    simp only [exec, execSealMessage, hentry, hctx, hparams, hnonce, hdata, haad]
    exact entry_answersSame _ hslot (hfinish _)
  | openMessage =>
    have hentry := openEntry_congr_of_agreeFor hctx hagree
    obtain ⟨hnonce, hdata, haad⟩ := hagree
    simp only [exec, execOpenMessage, hentry, hctx, hparams, hnonce, hdata, haad]
    exact entry_answersSame _ hslot (ite_answersSame _ (hraise _) (hfinish _))
  | nonceSize | overhead => exact hfinish _
  | encryptBlock =>
    have hdata : s.ports.dataIn = u.ports.dataIn := hagree
    simp only [exec, execEncryptBlock, blockEntry_congr_of_dataIn hctx hdata, hctx, hdata]
    exact entry_answersSame _ hslot (hfinish _)
  | decryptBlock =>
    have hdata : s.ports.dataIn = u.ports.dataIn := hagree
    simp only [exec, execDecryptBlock, blockEntry_congr_of_dataIn hctx hdata, hctx, hparams, hdata]
    exact ite_answersSame _ (hraise _) (entry_answersSame _ hslot (hfinish _))
  | gfmul =>
    obtain ⟨hx, hy⟩ := hagree
    simp only [exec, execGfmul, hparams, hx, hy]
    exact hfinish _
  | ghash =>
    obtain ⟨hdata, hx⟩ := hagree
    simp only [exec, execGhash, hctx, hparams, hdata, hx]
    exact ite_answersSame _ (hraise _) (hfinish _)
  | cipherBlocks =>
    obtain ⟨hdata, hx⟩ := hagree
    simp only [exec, execCipherBlocks, hctx, hdata, hx]
    exact ite_answersSame _ (hraise _) (hfinish _)

end

/-- Settles O16: by cases on the command. -/
theorem unlistedOperandsAreIgnored : Obligations.UnlistedOperandsAreIgnored := by
  unfold Obligations.UnlistedOperandsAreIgnored
  intro i s u t hctx hparams hagree hexec
  exact (exec_answersSame_of_agreeFor hctx hparams hagree).exists_next hexec

end Sys2Proof.Machine
end

-- Proofs: words of the default table, and the two constant queries (spec/30_encoding.md R82, R207, R208)
section
-- Elaborates the proofs one after another: the check's memory limit counts a stack for each proof in the making.
set_option deprecated.oldSectionVars true
/-! The default of `CMD_ENCODING` is an assignment, so each word of its table decodes by `decode_encode`. -/

namespace Sys2Proof.Machine

/-- No two commands have one word in the table of R82. -/
theorem default_wellFormed : CmdEncoding.default.wellFormed = true := by decide

/-- A command that finishes in the state it began in answers its data, counted where 64 bits can hold the count. -/
theorem answers_of_exec_eq_finish {i : Instr} {s : State} {data : List Byte} (h : exec i s = finish data s)
    (hlt : data.length < 2 ^ 64) :
    answers i s { status := .ok, outLen := BitVec.ofNat 64 data.length, dataOut := data } := by
  rw [answers, h, finish, okResponse, outLenOf_of_lt hlt, State.withResponse]

/-- Settles O8: seven words of the table, and two words that the search of it does not find. -/
theorem sampleWordsDecode : Obligations.SampleWordsDecode := by
  unfold Obligations.SampleWordsDecode
  have hword := decode_encode default_wellFormed
  exact ⟨hword .newAead, hword .openMessage, hword .expandKey, hword .decryptBlock, hword .gfmul, hword .ghash,
    hword .cipherBlocks, by decide, by decide⟩

/-- Settles O58: the word by the table, the answer because the query has no check to fail. -/
theorem nonceSizeAnswersTwelve : Obligations.NonceSizeAnswersTwelve := by
  unfold Obligations.NonceSizeAnswersTwelve
  exact ⟨decode_encode default_wellFormed .nonceSize,
    fun s => answers_of_exec_eq_finish (data := [0x0c]) rfl (by decide)⟩

/-- Settles O59: the word by the table, the answer because the query has no check to fail. -/
theorem overheadAnswersSixteen : Obligations.OverheadAnswersSixteen := by
  unfold Obligations.OverheadAnswersSixteen
  exact ⟨decode_encode default_wellFormed .overhead,
    fun s => answers_of_exec_eq_finish (data := [0x10]) rfl (by decide)⟩

end Sys2Proof.Machine
end

-- Proofs: what EXPANDKEY writes and answers, and the keys it refuses (spec/40_key_schedule.md R107, R111)
section
-- Elaborates the proofs one after another: the check's memory limit counts a stack for each proof in the making.
set_option deprecated.oldSectionVars true
/-! The output of `EXPANDKEY` is the schedule's words one after another, and the key's length fixes its outcome. -/

namespace Sys2Proof.Machine

/-- Each word is written where the one before it ended, so the output is their bytes in order (R53, R62). -/
theorem writeWords_eq_flatMap (w : WordFile) (n : Nat) :
    writeWords w n = (List.range n).flatMap fun i => bytesBe (readW w i) 4 := by
  induction n with
  | zero => rfl
  | succ n ih =>
    have hlength : (writeWords w n).length = 4 * n := by simp [ih, Nat.mul_comm]
    have hlast : writeWords w (n + 1) = memWrite (writeWords w n) (4 * n) (bytesBe (readW w n) 4) := by
      simp only [writeWords, List.range_succ, List.foldl_append, List.foldl_cons, List.foldl_nil]
    rw [hlast, ← hlength, memWrite_end, ih, List.range_succ, List.flatMap_append, List.flatMap_singleton]

@[simp] theorem writeWords_length (w : WordFile) (n : Nat) : (writeWords w n).length = 4 * n := by
  simp [writeWords_eq_flatMap, Nat.mul_comm]

/-- A command that raises in the state it began in answers the failure, and changes nothing (R236). -/
theorem answers_of_exec_eq_raise {i : Instr} {s : State} {f : Failure} (h : exec i s = raise f s) :
    answers i s { status := .failed f, outLen := 0, dataOut := [] } := h

/-- A command that is present and whose flag is clear answers `NoContext`, and changes nothing (R235). -/
theorem answers_noContext_of_not_readyFor {i : Instr} {s : State} (hready : ¬ s.ctx.readyFor i)
    (hpresent : i = .decryptBlock → s.params.hasInvCipher = true) :
    answers i s { status := .failed .noContext, outLen := 0, dataOut := [] } :=
  answers_of_exec_eq_raise (exec_of_not_readyFor hready hpresent)

/-- Settles O20: the schedule by `expandKey_holdsSchedule`, the answer by `writeWords_eq_flatMap`. -/
theorem expandKeyWritesKeySchedule : Obligations.ExpandKeyWritesKeySchedule := by
  unfold Obligations.ExpandKeyWritesKeySchedule
  intro s hlength
  have hkey := keyLengthLegal_iff.mpr hlength
  have hwords : scheduleLength (nrOf s.ports.keyIn.length) = 4 * (s.ports.keyIn.length / 4 + 7) := by
    rw [nrOf_val_of_legal hkey, scheduleLength, nkOf]
  have hbytes : 4 * (4 * (s.ports.keyIn.length / 4 + 7)) = 16 * (s.ports.keyIn.length / 4 + 7) := by omega
  refine ⟨_, exec_expandKey_of_legal hkey, rfl, rfl, toNat_nk_of_legal hkey, nrOf_val_of_legal hkey,
    expandKey_holdsSchedule hkey s.ctx.w, fun i hi => readW_expandKey_of_le hi s.ctx.w, rfl, rfl, rfl, rfl, rfl, ?_⟩
  rw [State.withResponse_response, okResponse, writeWords_length, hwords, hbytes, outLenOf_of_lt (by omega),
    writeWords_eq_flatMap]
  rfl

/-- Settles O24: `EXPANDKEY` leaves `CTX_VALID` clear, the flag that the three commands need. -/
theorem expandKeyDisablesAead : Obligations.ExpandKeyDisablesAead := by
  unfold Obligations.ExpandKeyDisablesAead
  intro s t o hlength ht
  rw [exec_expandKey_of_legal (keyLengthLegal_iff.mpr hlength), finish_eq_next] at ht
  subst ht
  exact ⟨rfl, rfl, rfl, answers_noContext_of_not_readyFor Bool.false_ne_true nofun,
    answers_noContext_of_not_readyFor Bool.false_ne_true nofun,
    answers_noContext_of_not_readyFor Bool.false_ne_true nofun⟩

/-- Settles O21: the key's length is the first thing that either command checks. -/
theorem illegalKeyLengthsFail : Obligations.IllegalKeyLengthsFail := by
  unfold Obligations.IllegalKeyLengthsFail
  intro s h16 h24 h32
  have hkey : keyLengthLegal s.ports.keyIn.length = false := by
    rw [← Bool.not_eq_true, keyLengthLegal_iff]
    simp only [h16, h24, h32, or_self, not_false_eq_true]
  exact ⟨answers_of_exec_eq_raise (exec_expandKey_of_illegal hkey),
    answers_of_exec_eq_raise (exec_newAead_of_illegal hkey)⟩

end Sys2Proof.Machine
end

-- Proofs: GF(2^8) and the S-box (spec/40_key_schedule.md R102, R103; spec/41_aes_round_engine.md R128)
section
-- Elaborates the proofs one after another: the check's memory limit counts a stack for each proof in the making.
set_option deprecated.oldSectionVars true
/-! mulMod is linear in each factor, associative, and has 1 as its unit, so a byte has at most one inverse. The S-box
table, with its affine map undone, is that inverse. -/

namespace Sys2Proof.Machine

/-! ### Repeated doubling -/

theorem xtime_eq_xor (a : Byte) : xtime a = a <<< 1 ^^^ if a.getLsbD 7 then 0x1b else 0 := by
  unfold xtime
  split
  · rfl
  · exact BitVec.xor_zero.symm

theorem xtime_xorLinear : XorLinear xtime := by
  rw [funext xtime_eq_xor]
  exact (XorLinear.id.shiftLeft 1).xor (XorLinear.ite_getLsbD 7 0x1b)

theorem iterate_xtime_xorLinear (n : Nat) : XorLinear xtime^[n] := by
  induction n with
  | zero => exact XorLinear.id
  | succ n ih => exact ih.comp xtime_xorLinear

/-- The term that turn `i` of R128's loop adds to `r`. -/
def mulModTerm (a b : Byte) (i : Nat) : Byte := if b.getLsbD i then xtime^[i] a else 0

/-- R128's loop after `n` turns: `r` is the sum of the terms, `t` is `a` doubled `n` times. -/
theorem mulModStep_range (a b : Byte) (n : Nat) :
    (List.range n).foldl (mulModStep b) (0, a) =
      ((List.range n).foldl (fun r i => r ^^^ mulModTerm a b i) 0, xtime^[n] a) := by
  induction n with
  | zero => rfl
  | succ n ih =>
    rw [List.range_succ, List.foldl_append, List.foldl_append, ih, Function.iterate_succ_apply']
    by_cases h : b.getLsbD n <;> simp [mulModStep, mulModTerm, h]

theorem mulMod_eq_foldl (a b : Byte) : mulMod a b = (List.range 8).foldl (fun r i => r ^^^ mulModTerm a b i) 0 := by
  rw [mulMod, mulModStep_range]

/-! ### The field's laws -/

theorem mulMod_left_xorLinear (b : Byte) : XorLinear fun a => mulMod a b := by
  simp only [mulMod_eq_foldl]
  refine XorLinear.foldl _ (fun i a => mulModTerm a b i) fun i _ x y => ?_
  by_cases h : b.getLsbD i <;> simp [mulModTerm, h, iterate_xtime_xorLinear i x y]

theorem mulMod_right_xorLinear (a : Byte) : XorLinear fun b => mulMod a b := by
  simp only [mulMod_eq_foldl]
  exact XorLinear.foldl _ (fun i b => mulModTerm a b i) fun i _ => XorLinear.ite_getLsbD i _

@[simp] theorem zero_mulMod (b : Byte) : mulMod 0 b = 0 := (mulMod_left_xorLinear b).map_zero

/-- Multiplication by a single bit doubles as often as the bit's place says. -/
theorem mulMod_twoPow (a : Byte) {i : Nat} (hi : i < 8) : mulMod a (.twoPow 8 i) = xtime^[i] a := by
  have hother : ∀ j ∈ List.range 8, j ≠ i → mulModTerm a (.twoPow 8 i) j = 0#8 := by
    intro j _ hji
    simp [mulModTerm, BitVec.getLsbD_twoPow, Ne.symm hji]
  rw [mulMod_eq_foldl, foldl_xor_eq_single List.nodup_range (List.mem_range.mpr hi) hother]
  simp [mulModTerm, hi]

@[simp] theorem mulMod_one (a : Byte) : mulMod a 1 = a := mulMod_twoPow a (i := 0) (by decide)

@[simp] theorem one_mulMod (b : Byte) : mulMod 1 b = b := by
  refine (mulMod_right_xorLinear 1).eq_of_twoPow XorLinear.id (fun i hi => ?_) b
  rw [mulMod_twoPow 1 hi]
  decide +revert

/-- Doubling the second factor doubles the product: both sides are linear in both factors. -/
theorem mulMod_xtime_right (a b : Byte) : mulMod a (xtime b) = xtime (mulMod a b) := by
  refine ((mulMod_right_xorLinear a).comp xtime_xorLinear).eq_of_twoPow
    (xtime_xorLinear.comp (mulMod_right_xorLinear a)) (fun j hj => ?_) b
  refine (mulMod_left_xorLinear _).eq_of_twoPow (xtime_xorLinear.comp (mulMod_left_xorLinear _)) (fun i hi => ?_) a
  decide +revert

/-- For a single bit `c` both sides double the product of `a` and `b`. -/
theorem mulMod_assoc (a b c : Byte) : mulMod (mulMod a b) c = mulMod a (mulMod b c) := by
  refine (mulMod_right_xorLinear _).eq_of_twoPow ((mulMod_right_xorLinear a).comp (mulMod_right_xorLinear b))
    (fun i hi => ?_) c
  have hdouble : Function.Commute (mulMod a) xtime := mulMod_xtime_right a
  rw [mulMod_twoPow _ hi, mulMod_twoPow _ hi, (hdouble.iterate_right i).eq]

/-- A left inverse of a byte is its only right inverse. -/
theorem eq_of_mulMod_eq_one {a b c : Byte} (hc : mulMod c a = 1) (hb : mulMod a b = 1) : c = b := by
  calc c = mulMod c (mulMod a b) := by rw [hb, mulMod_one]
    _ = b := by rw [← mulMod_assoc, hc, one_mulMod]

/-! ### The table -/

/-- The affine map of R103 undone. -/
def sboxAffineInv (x : Byte) : Byte := x.rotateLeft 1 ^^^ x.rotateLeft 3 ^^^ x.rotateLeft 6 ^^^ 0x05

theorem sboxAffine_sboxAffineInv (x : Byte) : sboxAffine (sboxAffineInv x) = x := by
  decide +revert

/-- Each entry of the table but the first, with the affine map undone, is an inverse of its index (R102). -/
theorem mulMod_sboxAffineInv_sbox {a : Byte} (ha : a ≠ 0) : mulMod (sboxAffineInv (sbox a)) a = 1 := by
  decide +kernel +revert

/-- Settles O26: `a` has one inverse, and the table's entry is the affine map of it. -/
theorem sboxMeetsItsAlgebraicDefinition : Obligations.SboxMeetsItsAlgebraicDefinition := by
  unfold Obligations.SboxMeetsItsAlgebraicDefinition
  refine ⟨by decide, fun a b hb => ?_⟩
  have ha : a ≠ 0 := by
    rintro rfl
    rw [zero_mulMod] at hb
    exact absurd hb (by decide)
  rw [← eq_of_mulMod_eq_one (mulMod_sboxAffineInv_sbox ha) hb, sboxAffine_sboxAffineInv]

end Sys2Proof.Machine
end

-- Proofs: the AES round transformations and their inverses (spec/41_aes_round_engine.md R121 to R125, R129 to R132)
section
-- Elaborates the proofs one after another: the check's memory limit counts a stack for each proof in the making.
set_option deprecated.oldSectionVars true
/-! Each transformation is read cell by cell, and two matrices with the same cells are the same. -/

namespace Sys2Proof.Machine

/-! ### The S-box tables -/

theorem invSbox_sbox (a : Byte) : invSbox (sbox a) = a := by
  decide +kernel +revert

/-- `SBOX` has an inverse on the left, so it is one-to-one on a finite set, and the inverse is one on the right. -/
theorem sbox_invSbox (a : Byte) : sbox (invSbox a) = a := by
  have hleft : Function.LeftInverse invSbox sbox := invSbox_sbox
  exact hleft.rightInverse_of_surjective (Finite.injective_iff_surjective.mp hleft.injective) a

/-- Settles O27: one order entry by entry, the other because `SBOX` is one-to-one. -/
theorem invSboxUndoesSbox : Obligations.InvSboxUndoesSbox := by
  unfold Obligations.InvSboxUndoesSbox
  exact fun a => ⟨invSbox_sbox a, sbox_invSbox a⟩

/-! ### The cells of a matrix -/

@[simp] theorem getElem_loadState (b : Block) {r c : Nat} (hr : r < 4) (hc : c < 4) :
    (loadState b)[r][c] = b[r + 4 * c] := by
  simp only [loadState, Vector.getElem_ofFn]

@[simp] theorem getElem_storeState (st : Matrix44) {k : Nat} (hk : k < 16) :
    (storeState st)[k] = st[k % 4][k / 4] := by
  simp only [storeState, Vector.getElem_ofFn]

section

variable (st : Matrix44) {r c : Nat} (hr : r < 4) (hc : c < 4)

@[simp] theorem getElem_subBytes : (subBytes st)[r][c] = sbox st[r][c] := by
  simp only [subBytes, Vector.getElem_ofFn, Fin.getElem_fin]

@[simp] theorem getElem_invSubBytes : (invSubBytes st)[r][c] = invSbox st[r][c] := by
  simp only [invSubBytes, Vector.getElem_ofFn, Fin.getElem_fin]

@[simp] theorem getElem_shiftRows : (shiftRows st)[r][c] = st[r][(c + r) % 4] := by
  simp only [shiftRows, Vector.getElem_ofFn, Fin.getElem_fin]

@[simp] theorem getElem_invShiftRows : (invShiftRows st)[r][c] = st[r][(c + 4 - r) % 4] := by
  simp only [invShiftRows, Vector.getElem_ofFn, Fin.getElem_fin]

@[simp] theorem getElem_addRoundKey (w : WordFile) (k : Nat) :
    (addRoundKey w k st)[r][c] = st[r][c] ^^^ (readW w (4 * k + c)).extractLsb' (24 - 8 * r) 8 := by
  simp only [addRoundKey, Vector.getElem_ofFn, Fin.getElem_fin]

end

/-! ### Load and store -/

theorem storeState_loadState (b : Block) : storeState (loadState b) = b := by
  ext1 k hk
  have hcell : k % 4 + 4 * (k / 4) = k := Nat.mod_add_div k 4
  simp only [getElem_storeState, getElem_loadState, hcell]

theorem loadState_storeState (st : Matrix44) : loadState (storeState st) = st := by
  ext1 r hr
  ext1 c hc
  have hrow : (r + 4 * c) % 4 = r := by omega
  have hcolumn : (r + 4 * c) / 4 = c := by omega
  simp only [getElem_loadState, getElem_storeState, hrow, hcolumn]

/-- Settles O28: the cells by `getElem_loadState`, read at the matrix that was stored for StoreState. -/
theorem storeStateUndoesLoadState : Obligations.StoreStateUndoesLoadState := by
  unfold Obligations.StoreStateUndoesLoadState
  have hload (b : Block) (r c : Fin 4) : (loadState b)[r][c] = b.toList.getD (r.val + 4 * c.val) 0 := by
    have hcell : r.val + 4 * c.val < 16 := by omega
    simp [hcell]
  refine fun b st => ⟨storeState_loadState b, fun r c => ⟨hload b r c, ?_⟩⟩
  rw [← hload, loadState_storeState]

/-! ### The byte and row transformations -/

theorem invSubBytes_subBytes (st : Matrix44) : invSubBytes (subBytes st) = st := by
  ext1 r hr
  ext1 c hc
  rw [getElem_invSubBytes, getElem_subBytes, invSbox_sbox]

theorem subBytes_invSubBytes (st : Matrix44) : subBytes (invSubBytes st) = st := by
  ext1 r hr
  ext1 c hc
  rw [getElem_subBytes, getElem_invSubBytes, sbox_invSbox]

theorem invShiftRows_shiftRows (st : Matrix44) : invShiftRows (shiftRows st) = st := by
  ext1 r hr
  ext1 c hc
  have hcolumn : ((c + 4 - r) % 4 + r) % 4 = c := by omega
  simp only [getElem_invShiftRows, getElem_shiftRows, hcolumn]

theorem shiftRows_invShiftRows (st : Matrix44) : shiftRows (invShiftRows st) = st := by
  ext1 r hr
  ext1 c hc
  have hcolumn : ((c + r) % 4 + 4 - r) % 4 = c := by omega
  simp only [getElem_shiftRows, getElem_invShiftRows, hcolumn]

theorem addRoundKey_addRoundKey (w : WordFile) (k : Nat) (st : Matrix44) :
    addRoundKey w k (addRoundKey w k st) = st := by
  ext1 r hr
  ext1 c hc
  rw [getElem_addRoundKey, getElem_addRoundKey, BitVec.xor_assoc, BitVec.xor_self, BitVec.xor_zero]

/-! ### The column transformations -/

/-- The product of a circulant matrix and `st`: MixColumns and InvMixColumns by their first rows (R124, R132). -/
def circulantProduct (k0 k1 k2 k3 : Byte) (st : Matrix44) : Matrix44 :=
  Vector.ofFn fun r => Vector.ofFn fun c => circulantColumn k0 k1 k2 k3 st r c

theorem mixColumns_eq_circulantProduct : mixColumns = circulantProduct 0x02 0x03 0x01 0x01 := rfl

theorem invMixColumns_eq_circulantProduct : invMixColumns = circulantProduct 0x0e 0x0b 0x0d 0x09 := rfl

theorem getElem_circulantProduct (k0 k1 k2 k3 : Byte) (st : Matrix44) {r c : Nat} (hr : r < 4) (hc : c < 4) :
    (circulantProduct k0 k1 k2 k3 st)[r][c] =
      mulMod st[r][c] k0 ^^^ mulMod st[(r + 1) % 4][c] k1 ^^^ mulMod st[(r + 2) % 4][c] k2
        ^^^ mulMod st[(r + 3) % 4][c] k3 := by
  simp only [circulantProduct, circulantColumn, Vector.getElem_ofFn, Fin.getElem_fin]

theorem xor_mulMod (a b c : Byte) : mulMod (a ^^^ b) c = mulMod a c ^^^ mulMod b c := mulMod_left_xorLinear c a b

theorem mulMod_xor (a b c : Byte) : mulMod a (b ^^^ c) = mulMod a b ^^^ mulMod a c := mulMod_right_xorLinear a b c

/-- The product of two circulant matrices is circulant: its first row convolves theirs. -/
theorem circulantProduct_circulantProduct (j0 j1 j2 j3 k0 k1 k2 k3 : Byte) (st : Matrix44) :
    circulantProduct j0 j1 j2 j3 (circulantProduct k0 k1 k2 k3 st) =
      circulantProduct
        (mulMod k0 j0 ^^^ mulMod k3 j1 ^^^ mulMod k2 j2 ^^^ mulMod k1 j3)
        (mulMod k1 j0 ^^^ mulMod k0 j1 ^^^ mulMod k3 j2 ^^^ mulMod k2 j3)
        (mulMod k2 j0 ^^^ mulMod k1 j1 ^^^ mulMod k0 j2 ^^^ mulMod k3 j3)
        (mulMod k3 j0 ^^^ mulMod k2 j1 ^^^ mulMod k1 j2 ^^^ mulMod k0 j3) st := by
  ext1 r hr
  ext1 c hc
  have h4 : (r + 4) % 4 = r := by omega
  have h5 : (r + 5) % 4 = (r + 1) % 4 := by omega
  have h6 : (r + 6) % 4 = (r + 2) % 4 := by omega
  simp only [getElem_circulantProduct, xor_mulMod, mulMod_xor, mulMod_assoc, Nat.mod_add_mod, Nat.add_assoc,
    Nat.reduceAdd, h4, h5, h6]
  generalize st[r][c] = a0, st[(r + 1) % 4][c] = a1, st[(r + 2) % 4][c] = a2, st[(r + 3) % 4][c] = a3
  ac_rfl

/-- The first row `01 00 00 00` is that of the identity matrix. -/
theorem circulantProduct_one (st : Matrix44) : circulantProduct 1 0 0 0 st = st := by
  ext1 r hr
  ext1 c hc
  have hzero (a : Byte) : mulMod a 0 = 0#8 := (mulMod_right_xorLinear a).map_zero
  simp only [getElem_circulantProduct, hzero, mulMod_one, BitVec.xor_zero]

/-- The first rows of R124 and R132 convolve to `01 00 00 00`, by evaluation. -/
theorem invMixColumns_mixColumns (st : Matrix44) : invMixColumns (mixColumns st) = st := by
  rw [mixColumns_eq_circulantProduct, invMixColumns_eq_circulantProduct, circulantProduct_circulantProduct]
  exact circulantProduct_one st

/-- In the other order the first rows convolve to `01 00 00 00` as well. -/
theorem mixColumns_invMixColumns (st : Matrix44) : mixColumns (invMixColumns st) = st := by
  rw [mixColumns_eq_circulantProduct, invMixColumns_eq_circulantProduct, circulantProduct_circulantProduct]
  exact circulantProduct_one st

/-- Settles O29: one cell of each pair, and the product of the two circulant matrices of R124 and R132. -/
theorem roundTransformationsInvert : Obligations.RoundTransformationsInvert := by
  unfold Obligations.RoundTransformationsInvert
  exact fun st => ⟨invSubBytes_subBytes st, subBytes_invSubBytes st, invShiftRows_shiftRows st,
    shiftRows_invShiftRows st, invMixColumns_mixColumns st, mixColumns_invMixColumns st,
    fun w k => addRoundKey_addRoundKey w k st⟩

end Sys2Proof.Machine
end

-- Proofs: encryptBlock and decryptBlock undo each other (spec/41_aes_round_engine.md R126, R133)
section
-- Elaborates the proofs one after another: the check's memory limit counts a stack for each proof in the making.
set_option deprecated.oldSectionVars true
/-! A round of decryption undoes the end of one round of encryption and the beginning of the next. So the rounds of
encryption are cut anew, at the places where the rounds of decryption are cut. -/

namespace Sys2Proof.Machine

/-- Steps that undo those of a left fold, taken in reverse order, undo the fold. -/
theorem foldl_reverse_foldl {σ ι : Type} {f g : σ → ι → σ} (h : ∀ s i, g (f s i) i = s) (is : List ι) (s : σ) :
    is.reverse.foldl g (is.foldl f s) = s := by
  induction is generalizing s with
  | nil => rfl
  | cons i is ih =>
    rw [List.reverse_cons, List.foldl_concat, List.foldl_cons, ih, h]

/-! ### The rounds of encryption, cut as decryption cuts them -/

/-- MixColumns, which round 0 does not have. -/
def mixUnlessFirst (rnd : Nat) (st : Matrix44) : Matrix44 := if rnd = 0 then st else mixColumns st

/-- The end of round `rnd` of encryption (MixColumns and AddRoundKey) and the beginning of the next round (SubBytes and
ShiftRows). -/
def straddlingRound (w : WordFile) (st : Matrix44) (rnd : Nat) : Matrix44 :=
  shiftRows (subBytes (addRoundKey w rnd (mixUnlessFirst rnd st)))

theorem decryptRound_straddlingRound (w : WordFile) (st : Matrix44) (rnd : Nat) :
    decryptRound w (straddlingRound w st rnd) rnd = st := by
  have hkeyed : addRoundKey w rnd (invSubBytes (invShiftRows (straddlingRound w st rnd))) = mixUnlessFirst rnd st := by
    rw [straddlingRound, invShiftRows_shiftRows, invSubBytes_subBytes, addRoundKey_addRoundKey]
  rw [decryptRound, hkeyed, mixUnlessFirst]
  split
  · rfl
  · exact invMixColumns_mixColumns st

theorem mixUnlessFirst_decryptRound (w : WordFile) (st : Matrix44) (rnd : Nat) :
    mixUnlessFirst rnd (decryptRound w st rnd) = addRoundKey w rnd (invSubBytes (invShiftRows st)) := by
  rw [mixUnlessFirst, decryptRound]
  split
  · rfl
  · exact mixColumns_invMixColumns _

theorem straddlingRound_decryptRound (w : WordFile) (st : Matrix44) (rnd : Nat) :
    straddlingRound w (decryptRound w st rnd) rnd = st := by
  rw [straddlingRound, mixUnlessFirst_decryptRound, addRoundKey_addRoundKey, subBytes_invSubBytes,
    shiftRows_invShiftRows]

/-- The rounds before the final one. -/
theorem foldl_encryptRound_of_lt (w : WordFile) {nr n : Nat} (h : n < nr) (st : Matrix44) :
    (List.range' 1 n).foldl (encryptRound w nr) (addRoundKey w 0 st) =
      addRoundKey w n (mixUnlessFirst n ((List.range n).foldl (straddlingRound w) st)) := by
  induction n with
  | zero => rfl
  | succ n ih =>
    have hne : n + 1 ≠ nr := Nat.ne_of_lt h
    rw [List.range'_1_concat, List.foldl_concat, ih (Nat.lt_of_succ_lt h), List.range_succ, List.foldl_concat,
      Nat.add_comm 1 n, encryptRound, if_neg hne]
    rfl

/-- The final round has no MixColumns. -/
theorem foldl_encryptRound (w : WordFile) (nr : Nat) (st : Matrix44) :
    (List.range' 1 nr).foldl (encryptRound w nr) (addRoundKey w 0 st) =
      addRoundKey w nr ((List.range nr).foldl (straddlingRound w) st) := by
  cases nr with
  | zero => rfl
  | succ n =>
    rw [List.range'_1_concat, List.foldl_concat, foldl_encryptRound_of_lt w n.lt_succ_self, List.range_succ,
      List.foldl_concat, Nat.add_comm 1 n, encryptRound, if_pos rfl]
    rfl

theorem cipher_eq_straddlingRounds (w : WordFile) (nr : Nat) (b : Block) :
    cipher w nr b = storeState (addRoundKey w nr ((List.range nr).foldl (straddlingRound w) (loadState b))) := by
  rw [cipher, foldl_encryptRound]

/-! ### Blocks -/

theorem invCipher_cipher (w : WordFile) (nr : Nat) (b : Block) : invCipher w nr (cipher w nr b) = b := by
  rw [cipher_eq_straddlingRounds, invCipher, loadState_storeState, addRoundKey_addRoundKey,
    foldl_reverse_foldl (decryptRound_straddlingRound w), storeState_loadState]

theorem cipher_invCipher (w : WordFile) (nr : Nat) (b : Block) : cipher w nr (invCipher w nr b) = b := by
  have hundo := foldl_reverse_foldl (straddlingRound_decryptRound w) (List.range nr).reverse
  rw [List.reverse_reverse] at hundo
  rw [cipher_eq_straddlingRounds, invCipher, loadState_storeState, hundo, addRoundKey_addRoundKey,
    storeState_loadState]

theorem decryptBlock_encryptBlock (c : Context) (b : Block) : decryptBlock c (encryptBlock c b) = b :=
  invCipher_cipher c.w c.nr b

theorem encryptBlock_decryptBlock (c : Context) (b : Block) : encryptBlock c (decryptBlock c b) = b :=
  cipher_invCipher c.w c.nr b

/-- Settles O30: the rounds of decryption undo the straddling rounds of encryption in reverse order, and the other way
round. -/
theorem decryptBlockInvertsEncryptBlock : Obligations.DecryptBlockInvertsEncryptBlock := by
  unfold Obligations.DecryptBlockInvertsEncryptBlock
  exact fun c b => ⟨decryptBlock_encryptBlock c b, encryptBlock_decryptBlock c b⟩

end Sys2Proof.Machine
end

-- Proofs: the commands on one block (spec/41_aes_round_engine.md R134, R135; spec/60_exceptions.md R238)
section
-- Elaborates the proofs one after another: the check's memory limit counts a stack for each proof in the making.
set_option deprecated.oldSectionVars true
/-! `ENCRYPTBLOCK` and `DECRYPTBLOCK` by the outcome of their entry checks. -/

namespace Sys2Proof.Machine

/-! ### Sixteen bytes -/

theorem memRead_block (b : Block) : memRead b.toList 0 16 = b.toList := by
  simpa only [Vector.length_toList] using memRead_all b.toList

/-- A command that finishes with a block, in the state it began in, answers it. -/
theorem answers_block_of_exec_eq_finish {i : Instr} {s : State} {b : Block} (h : exec i s = finish b.toList s) :
    answers i s { status := .ok, outLen := 16, dataOut := b.toList } := by
  have hlength : b.toList.length = 16 := b.length_toList
  have hanswers := answers_of_exec_eq_finish h (by omega)
  rwa [hlength] at hanswers

section

variable {s : State} {b : Block} (hks : s.ctx.ksValid = true) (hdata : s.ports.dataIn = b.toList)
include hks hdata

theorem blockEntry_of_block : blockEntry s = none := by
  rw [blockEntry_eq_none, hdata]
  exact ⟨hks, b.length_toList⟩

theorem exec_encryptBlock_of_block : exec .encryptBlock s = finish (encryptBlock s.ctx b).toList s := by
  rw [exec_encryptBlock_of_entry (blockEntry_of_block hks hdata), hdata, memRead_block, blockOfBytes_of_toList,
    memWrite_nil]

theorem exec_decryptBlock_of_block (hpresent : s.params.hasInvCipher = true) :
    exec .decryptBlock s = finish (decryptBlock s.ctx b).toList s := by
  rw [exec_decryptBlock_of_entry hpresent (blockEntry_of_block hks hdata), hdata, memRead_block,
    blockOfBytes_of_toList, memWrite_nil]

end

/-- Settles O31: sixteen bytes pass the entry checks. -/
theorem encryptBlockAnswersCiphertext : Obligations.EncryptBlockAnswersCiphertext := by
  unfold Obligations.EncryptBlockAnswersCiphertext
  exact fun s b hks hdata => answers_block_of_exec_eq_finish (exec_encryptBlock_of_block hks hdata)

/-- Settles O32: sixteen bytes pass the entry checks, and the cipher undoes its inverse. -/
theorem decryptBlockAnswersPlaintext : Obligations.DecryptBlockAnswersPlaintext := by
  unfold Obligations.DecryptBlockAnswersPlaintext
  exact fun s b hpresent hks hdata =>
    ⟨answers_block_of_exec_eq_finish (exec_decryptBlock_of_block hks hdata hpresent),
      encryptBlock_decryptBlock s.ctx b⟩

/-! ### Entry checks that fail -/

theorem exec_encryptBlock_of_failed_entry {s : State} {f : Failure} (h : blockEntry s = some f) :
    exec .encryptBlock s = raise f s := by
  simp only [exec, execEncryptBlock, h]

theorem exec_decryptBlock_of_failed_entry {s : State} {f : Failure} (hpresent : s.params.hasInvCipher = true)
    (h : blockEntry s = some f) : exec .decryptBlock s = raise f s := by
  simp only [exec, execDecryptBlock, hpresent, Bool.true_eq_false, if_false, h]

theorem blockEntry_of_wrong_length {s : State} (hks : s.ctx.ksValid = true) (hlength : s.ports.dataIn.length ≠ 16) :
    blockEntry s = some .invalidBlockLength := by
  rw [blockEntry, hks, if_neg Bool.true_eq_false.mp, if_pos hlength]

/-- Settles O33: the option comes before the entry checks, and the flag before the length. -/
theorem blockCommandFailuresInOrder : Obligations.BlockCommandFailuresInOrder := by
  unfold Obligations.BlockCommandFailuresInOrder
  refine fun s => ⟨fun habsent => ?_, fun hks => ?_, fun hks hlength => ?_⟩
  · exact answers_of_exec_eq_raise (exec_decryptBlock_of_no_invCipher habsent)
  · have hready : s.ctx.ksValid ≠ true := ne_true_of_eq_false hks
    exact ⟨answers_noContext_of_not_readyFor hready nofun,
      fun hpresent => answers_noContext_of_not_readyFor hready fun _ => hpresent⟩
  · have hentry := blockEntry_of_wrong_length hks hlength
    exact ⟨answers_of_exec_eq_raise (exec_encryptBlock_of_failed_entry hentry),
      fun hpresent => answers_of_exec_eq_raise (exec_decryptBlock_of_failed_entry hpresent hentry)⟩

end Sys2Proof.Machine
end

-- Proofs: GF(2^128) is commutative and associative (spec/42_gf128_multiplier.md R150, R151)
section
-- Elaborates the proofs one after another: the check's memory limit counts a stack for each proof in the making.
set_option deprecated.oldSectionVars true
/-! The shift step of Algorithm 1 commutes with every multiplication, and repeating it on `one` gives every monomial. So
both laws hold on monomials, and by linearity on all elements. -/

namespace Sys2Proof.Machine

/-! ### Monomials -/

/-- Linear functions that agree on the monomials are equal; the monomial of degree `i` is GCM bit `i` (R150). -/
theorem eq_of_monomials {f g : GF128 → GF128} (hf : XorLinear f) (hg : XorLinear g)
    (h : ∀ i < 128, f (.twoPow 128 (127 - i)) = g (.twoPow 128 (127 - i))) (x : GF128) : f x = g x := by
  refine hf.eq_of_twoPow hg (fun j hj => ?_) x
  have hmonomial := h (127 - j) (by omega)
  rwa [show 127 - (127 - j) = j by omega] at hmonomial

/-- The shift step raises the degree of a monomial by one, where the monomial stays below degree 128. -/
theorem mulAlpha_twoPow {i : Nat} (hi : i + 1 < 128) :
    mulAlpha (.twoPow 128 (127 - i)) = .twoPow 128 (127 - (i + 1)) := by
  have hlow : (BitVec.twoPow 128 (127 - i)).getLsbD 0 = false := by
    rw [BitVec.getLsbD_twoPow, decide_eq_false (by omega : ¬127 - i = 0), Bool.and_false]
  rw [mulAlpha, if_neg (ne_true_of_eq_false hlow)]
  ext k hk
  rw [BitVec.getElem_ushiftRight, BitVec.getLsbD_twoPow, BitVec.getElem_twoPow, Bool.eq_iff_iff]
  simp only [Bool.and_eq_true, decide_eq_true_eq]
  omega

/-- The monomial of degree `i` is the shift step, repeated `i` times on `one`. -/
theorem iterate_mulAlpha_gfOne {i : Nat} (hi : i < 128) : mulAlpha^[i] gfOne = .twoPow 128 (127 - i) := by
  induction i with
  | zero => decide
  | succ i ih => rw [Function.iterate_succ_apply', ih (by omega), mulAlpha_twoPow hi]

/-! ### Zero and one -/

theorem multiply_zero (x : GF128) : multiply x 0 = 0 := (multiply_right_xorLinear x).map_zero

theorem zero_multiply (x : GF128) : multiply 0 x = 0 := (multiply_left_xorLinear x).map_zero

theorem multiply_gfOne (x : GF128) : multiply x gfOne = x := by
  have hone : gfOne = .twoPow 128 (127 - 0) := iterate_mulAlpha_gfOne (i := 0) (by omega)
  rw [hone, multiply_twoPow x (by omega), Function.iterate_zero_apply]

theorem gfOne_multiply (x : GF128) : multiply gfOne x = x :=
  eq_of_monomials (multiply_right_xorLinear gfOne) XorLinear.id
    (fun _ hi => by rw [multiply_twoPow gfOne hi, iterate_mulAlpha_gfOne hi]) x

/-- Settles O36: Algorithm 1 is linear in each factor, and multiplies by a monomial by repeating its shift step. -/
theorem multiplyDistributesWithZeroAndOne : Obligations.MultiplyDistributesWithZeroAndOne := by
  unfold Obligations.MultiplyDistributesWithZeroAndOne
  exact fun x y z => ⟨multiply_right_xorLinear x y z, multiply_left_xorLinear z x y, multiply_zero x, zero_multiply x,
    multiply_gfOne x, gfOne_multiply x⟩

/-! ### Commutativity and associativity -/

/-- The shift step of a factor is the shift step of the product: by a monomial, both repeat the step once more. -/
theorem multiply_mulAlpha_left (x y : GF128) : multiply (mulAlpha x) y = mulAlpha (multiply x y) :=
  eq_of_monomials (multiply_right_xorLinear (mulAlpha x)) (mulAlpha_xorLinear.comp (multiply_right_xorLinear x))
    (fun i hi => by
      rw [multiply_twoPow _ hi, multiply_twoPow _ hi, ← Function.iterate_succ_apply, Function.iterate_succ_apply']) y

theorem multiply_iterate_mulAlpha_left (n : Nat) (x y : GF128) :
    multiply (mulAlpha^[n] x) y = mulAlpha^[n] (multiply x y) :=
  Function.Semiconj.iterate_right (f := fun x => multiply x y) (fun x => multiply_mulAlpha_left x y) n x

/-- Algorithm 1 by a monomial from the left repeats its shift step as well. -/
theorem twoPow_multiply {i : Nat} (hi : i < 128) (x : GF128) :
    multiply (.twoPow 128 (127 - i)) x = mulAlpha^[i] x := by
  rw [← iterate_mulAlpha_gfOne hi, multiply_iterate_mulAlpha_left, gfOne_multiply]

theorem multiply_comm (x y : GF128) : multiply x y = multiply y x :=
  eq_of_monomials (multiply_right_xorLinear x) (multiply_left_xorLinear x)
    (fun _ hi => by rw [multiply_twoPow x hi, twoPow_multiply hi]) y

theorem multiply_assoc (x y z : GF128) : multiply (multiply x y) z = multiply x (multiply y z) := by
  refine eq_of_monomials (multiply_right_xorLinear (multiply x y))
    ((multiply_right_xorLinear x).comp (multiply_right_xorLinear y)) (fun i hi => ?_) z
  calc multiply (multiply x y) (.twoPow 128 (127 - i))
      = mulAlpha^[i] (multiply y x) := by rw [multiply_twoPow _ hi, multiply_comm x y]
    _ = multiply (mulAlpha^[i] y) x := (multiply_iterate_mulAlpha_left i y x).symm
    _ = multiply x (multiply y (.twoPow 128 (127 - i))) := by rw [multiply_comm, multiply_twoPow y hi]

/-- Settles O34: multiplication by a monomial is the same from either side. -/
theorem multiplyCommutes : Obligations.MultiplyCommutes := by
  unfold Obligations.MultiplyCommutes
  exact multiply_comm

/-- Settles O35: multiplication by a monomial moves from the product to a factor. -/
theorem multiplyAssociates : Obligations.MultiplyAssociates := by
  unfold Obligations.MultiplyAssociates
  exact multiply_assoc

end Sys2Proof.Machine
end

-- Proofs: the other realisations of the multiplication, and GFMUL (spec/42_gf128_multiplier.md R157, R164, R166)
section
-- Elaborates the proofs one after another: the check's memory limit counts a stack for each proof in the making.
set_option deprecated.oldSectionVars true
/-! The table and the carry-less form compute Algorithm 1, and so does the command under every strategy. -/

namespace Sys2Proof.Machine

/-- Settles O37: the lookups add up the products of the element's bytes. -/
theorem tableMultiplyEqualsMultiply : Obligations.TableMultiplyEqualsMultiply := by
  unfold Obligations.TableMultiplyEqualsMultiply
  exact tableMultiply_buildTable

/-- Settles O38: the two forms are linear and agree on monomials. -/
theorem carrylessMultiplyEqualsMultiply : Obligations.CarrylessMultiplyEqualsMultiply := by
  unfold Obligations.CarrylessMultiplyEqualsMultiply
  exact multiplyClmul_eq_multiply

/-- `GFMUL` has no check to fail: it finishes with the product, in whatever state it began (R166). -/
theorem exec_gfmul (s : State) :
    exec .gfmul s =
      finish (blockOfElement (multiply (elementOfBlock s.ports.xIn) (elementOfBlock s.ports.yIn))).toList s := by
  rw [exec, execGfmul, memWrite_nil, gfmulUnder_eq_multiply]

/-- Settles O39: every strategy computes the product of Algorithm 1, which is one block. -/
theorem gfmulAnswersProduct : Obligations.GfmulAnswersProduct := by
  unfold Obligations.GfmulAnswersProduct
  exact fun s => answers_block_of_exec_eq_finish (exec_gfmul s)

end Sys2Proof.Machine
end

-- Proofs: GHASH as a Horner fold, and the component commands without their flag (spec/43_ghash.md R181, R182)
section
-- Elaborates the proofs one after another: the check's memory limit counts a stack for each proof in the making.
set_option deprecated.oldSectionVars true
/-! In a consistent valid context every strategy takes R181's step by Algorithm 1, so `GHASH` answers one Horner fold
whatever the strategy. -/

namespace Sys2Proof.Machine

/-! ### The Horner fold -/

theorem ghash_nil (strategy : MulStrategy) (c : Context) (a : GF128) : ghash strategy c [] a = a := rfl

/-- In a consistent context that is valid, GHASH steps by Algorithm 1 under every strategy (R165, R181). -/
theorem Context.consistent.ghash_eq_foldl_multiply {strategy : MulStrategy} {c : Context}
    (hc : c.consistent strategy) (hvalid : c.ctxValid = true) (data : List Byte) (a : GF128) :
    ghash strategy c data a = (List.range (nblocks data.length)).foldl
      (fun acc i => multiply (acc ^^^ elementOfBlock (memReadPad data (16 * i))) c.h) a :=
  List.foldl_ext _ _ _ fun acc i _ => by rw [ghashStep, gfAdd, hc.mulH_eq_multiply hvalid]

/-- Settles O40: with a valid context the command finishes with one block, the GHASH of its data, and that is the
fold. -/
theorem ghashAnswersHornerFold : Obligations.GhashAnswersHornerFold := by
  unfold Obligations.GhashAnswersHornerFold
  intro s hs hvalid
  have hexec := exec_ghash_of_ctxValid hvalid
  rw [memWrite_nil, hs.ghash_eq_foldl_multiply hvalid] at hexec
  exact answers_block_of_exec_eq_finish hexec

/-- Settles O41: padded data fills its blocks, and its padding is invisible. -/
theorem ghashChains : Obligations.GhashChains := by
  unfold Obligations.GhashChains
  exact ghash_pad16_append

/-- Settles O42: no data is no block, and zeros up to the next multiple of 16 begin none. -/
theorem ghashPaddingIsInvisible : Obligations.GhashPaddingIsInvisible := by
  unfold Obligations.GhashPaddingIsInvisible
  exact fun strategy c d a => ⟨ghash_nil strategy c a, fun _ hk => ghash_append_zeros hk strategy c a⟩

/-! ### Without the flag -/

/-- Settles O60: neither command is ready without its flag. -/
theorem componentCommandsNeedTheirContext : Obligations.ComponentCommandsNeedTheirContext := by
  unfold Obligations.ComponentCommandsNeedTheirContext
  refine fun s => ⟨fun hctx => ?_, fun hks => ?_⟩
  · exact answers_noContext_of_not_readyFor (ne_true_of_eq_false hctx) nofun
  · exact answers_noContext_of_not_readyFor (ne_true_of_eq_false hks) nofun

end Sys2Proof.Machine
end

-- Proofs: the counter and the keystream (spec/44_gctr.md R191 to R193)
section
-- Elaborates the proofs one after another: the check's memory limit counts a stack for each proof in the making.
set_option deprecated.oldSectionVars true
/-! The keystream has one byte for each position of the message, and the blocks of R192 put together are the message's
bytes each XOR its keystream byte. -/

namespace Sys2Proof.Machine

/-! ### The counter -/

theorem high_inc32 (cb : GF128) (n : Nat) : (inc32 cb n).extractLsb' 32 96 = cb.extractLsb' 32 96 :=
  BitVec.extractLsb'_append_eq_left

theorem low_inc32 (cb : GF128) (n : Nat) :
    (inc32 cb n).extractLsb' 0 32 = cb.extractLsb' 0 32 + BitVec.ofNat 32 n :=
  BitVec.extractLsb'_append_eq_right

theorem toNat_low_inc32 (cb : GF128) (n : Nat) :
    ((inc32 cb n).extractLsb' 0 32).toNat = ((cb.extractLsb' 0 32).toNat + n) % 2 ^ 32 := by
  rw [low_inc32, BitVec.toNat_add, BitVec.toNat_ofNat, Nat.add_mod_mod]

theorem inc32_inc32 (cb : GF128) (n m : Nat) : inc32 (inc32 cb n) m = inc32 cb (n + m) := by
  rw [inc32, high_inc32, low_inc32, inc32, BitVec.ofNat_add, BitVec.add_assoc]

/-- No carry leaves the low 32 bits, so a full turn of them changes nothing (R191). -/
theorem inc32_two_pow (cb : GF128) : inc32 cb (2 ^ 32) = cb := by
  have hturn : BitVec.ofNat 32 (2 ^ 32) = 0#32 := by decide
  rw [inc32, hturn, BitVec.add_zero]
  exact BitVec.extractLsb'_append_extractLsb' (w := 96) (len := 32)

/-- Settles O43: the two parts of the counter block by `high_inc32` and `low_inc32`. -/
theorem incrementWrapsLowThirtyTwoBits : Obligations.IncrementWrapsLowThirtyTwoBits := by
  unfold Obligations.IncrementWrapsLowThirtyTwoBits
  exact fun cb n m => ⟨high_inc32 cb n, toNat_low_inc32 cb n, inc32_inc32 cb n m, inc32_two_pow cb,
    by decide, by decide, by decide⟩

/-! ### The keystream -/

/-- Byte `j` of the keystream: byte `j % 16` of the block that R192 numbers `j / 16 + 1`. -/
def keystreamByte (c : Context) (icb : GF128) (j : Nat) : Byte :=
  (keystreamBlock c icb (j / 16 + 1)).toList.getD (j % 16) 0

theorem keystreamByte_add_mul (c : Context) (icb : GF128) (n : Nat) {i : Nat} (hi : i < 16) :
    keystreamByte c icb (i + 16 * n) = (keystreamBlock c icb (1 + n))[i] := by
  have hlength : i < (keystreamBlock c icb (1 + n)).toList.length := by rwa [Vector.length_toList]
  rw [keystreamByte, show (i + 16 * n) / 16 + 1 = 1 + n by omega, show (i + 16 * n) % 16 = i by omega,
    List.getD_eq_getElem _ _ hlength, Vector.getElem_toList]

/-- A block of the output is the message's bytes from its offset, each XOR its keystream byte (R192, R66). -/
theorem cipherBlock_eq_mapIdx (c : Context) (icb : GF128) (message : List Byte) (n : Nat) :
    cipherBlock c icb message (1 + n) =
      (memRead message (16 * n) 16).mapIdx fun i b => b ^^^ keystreamByte c icb (i + 16 * n) := by
  rw [cipherBlock, Nat.add_sub_cancel_left]
  refine List.ext_getElem (by simp [memRead]) fun i _ hi => ?_
  have hi16 : i < 16 := by
    simp only [memRead, List.length_mapIdx, List.length_take] at hi
    omega
  simp [memRead, keystreamByte_add_mul c icb n hi16]

/-- The first `n` blocks of the output are those of the message, each byte XOR its keystream byte. -/
theorem flatMap_cipherBlock_eq_mapIdx (c : Context) (icb : GF128) (message : List Byte) {n : Nat}
    (hn : n ≤ nblocks message.length) :
    (List.range' 1 n).flatMap (cipherBlock c icb message) =
      (message.take (16 * n)).mapIdx fun j b => b ^^^ keystreamByte c icb j := by
  induction n with
  | zero => rfl
  | succ n ih =>
    have hfull : 16 * n ≤ message.length := by
      have := nblocks_mul_lt message.length
      omega
    rw [List.range'_1_concat, List.flatMap_append, ih (by omega), List.flatMap_singleton, cipherBlock_eq_mapIdx,
      Nat.mul_succ, List.take_add, List.mapIdx_append, List.length_take_of_le hfull, memRead]

/-- The output is the message, each byte XOR its keystream byte (R192). -/
theorem cipherBlocks_eq_mapIdx (c : Context) (icb : GF128) (message : List Byte) :
    cipherBlocks c icb message = message.mapIdx fun j b => b ^^^ keystreamByte c icb j := by
  rw [cipherBlocks, flatMap_cipherBlock_eq_mapIdx c icb message le_rfl,
    List.take_of_length_le (le_nblocks_mul message.length)]

@[simp] theorem cipherBlocks_length (c : Context) (icb : GF128) (message : List Byte) :
    (cipherBlocks c icb message).length = message.length := by
  rw [cipherBlocks_eq_mapIdx, List.length_mapIdx]

theorem getElem_cipherBlocks (c : Context) (icb : GF128) (message : List Byte) {j : Nat} (h : j < message.length) :
    (cipherBlocks c icb message)[j]'(by rwa [cipherBlocks_length]) = message[j] ^^^ keystreamByte c icb j := by
  simp only [cipherBlocks_eq_mapIdx, List.getElem_mapIdx]

/-- Settles O46: each byte meets the same keystream byte twice. -/
theorem cipherBlocksIsItsOwnInverse : Obligations.CipherBlocksIsItsOwnInverse := by
  unfold Obligations.CipherBlocksIsItsOwnInverse
  intro c icb message
  refine List.ext_getElem (by simp only [cipherBlocks_length]) fun j _ hj => ?_
  rw [getElem_cipherBlocks c icb _ (by rwa [cipherBlocks_length]), getElem_cipherBlocks c icb message hj,
    BitVec.xor_assoc, BitVec.xor_self, BitVec.xor_zero]

/-- Settles O45: with a key schedule the command finishes with the message under the keystream. -/
theorem cipherBlocksXorsKeystream : Obligations.CipherBlocksXorsKeystream := by
  unfold Obligations.CipherBlocksXorsKeystream
  intro s hks
  refine ⟨_, ?_, cipherBlocks_length s.ctx (elementOfBlock s.ports.xIn) s.ports.dataIn, fun j hj => ?_⟩
  · rw [exec_cipherBlocks_of_ksValid hks, memWrite_nil, finish, okResponse, cipherBlocks_length, State.withResponse]
  · rw [List.getD_eq_getElem _ _ (by rwa [cipherBlocks_length]), List.getD_eq_getElem _ _ hj,
      getElem_cipherBlocks _ _ _ hj]
    rfl

end Sys2Proof.Machine
end

-- Proofs: SEAL and OPEN behind their entry checks (spec/45_aead_seal_open.md R202, R205, R206, R209)
section
-- Elaborates the proofs one after another: the check's memory limit counts a stack for each proof in the making.
set_option deprecated.oldSectionVars true
/-! What `SEAL` writes and how `OPEN` takes it apart again: the ciphertext, then the sixteen bytes of the tag. -/

namespace Sys2Proof.Machine

/-! ### SEAL -/

/-- The tag is written where the ciphertext ended (R53, R205). -/
theorem sealOutput_eq_append (strategy : MulStrategy) (c : Context) (nonce plaintext aad : List Byte) :
    sealOutput strategy c nonce plaintext aad =
      cipherBlocks c (makeICB nonce) plaintext ++
        (expectedTag strategy c nonce aad (cipherBlocks c (makeICB nonce) plaintext)).toList := by
  rw [sealOutput, memWrite_nil, memWrite_end]

@[simp] theorem sealOutput_length (strategy : MulStrategy) (c : Context) (nonce plaintext aad : List Byte) :
    (sealOutput strategy c nonce plaintext aad).length = plaintext.length + 16 := by
  rw [sealOutput_eq_append, List.length_append, cipherBlocks_length, Vector.length_toList]

/-- Settles O47: legal operands pass the entry checks, and 64 bits can hold the length of the output. -/
theorem sealAnswersCiphertextThenTag : Obligations.SealAnswersCiphertextThenTag := by
  unfold Obligations.SealAnswersCiphertextThenTag
  intro s hvalid hnonce hdata haad
  refine ⟨cipherBlocks_length _ _ _, ?_⟩
  have hentry : sealEntry s = none := sealEntry_eq_none.mpr ⟨hvalid, hnonce, hdata, haad⟩
  have hanswers := answers_of_exec_eq_finish (exec_sealMessage_of_entry hentry) (by rw [sealOutput_length]; omega)
  rwa [sealOutput_length, sealOutput_eq_append] at hanswers

/-! ### OPEN -/

@[simp] theorem openCiphertext_append (ct : List Byte) (tag : Block) : openCiphertext (ct ++ tag.toList) = ct := by
  rw [openCiphertext, overhead, List.length_append, Vector.length_toList, Nat.add_sub_cancel, memRead, List.drop_zero,
    List.take_left]

@[simp] theorem openTag_append (ct : List Byte) (tag : Block) : openTag (ct ++ tag.toList) = tag := by
  rw [openTag, overhead, List.length_append, Vector.length_toList, Nat.add_sub_cancel, memRead, List.drop_left,
    List.take_of_length_le (by rw [Vector.length_toList]), blockOfBytes_of_toList]

/-- No byte of a block differs from itself (R209). -/
theorem ctEqual_self (b : Block) : ctEqual b b = true := by
  simp only [ctEqual, BitVec.xor_self, BitVec.or_zero, List.foldl_fixed, decide_true]

theorem openEntry_of_append {s : State} {ct : List Byte} {tag : Block} (hvalid : s.ctx.ctxValid = true)
    (hnonce : s.ports.nonceIn.length = nonceSize) (hct : ct.length ≤ maxPtBytes)
    (haad : s.ports.aadIn.length ≤ maxAadBytes) (hdata : s.ports.dataIn = ct ++ tag.toList) : openEntry s = none := by
  have hlength : s.ports.dataIn.length = ct.length + overhead := by
    rw [hdata, List.length_append, Vector.length_toList, overhead]
  exact openEntry_eq_none.mpr ⟨hvalid, hnonce, by omega, by omega, haad⟩

/-- `OPEN` behind its entry checks, on a ciphertext followed by a tag: the comparison decides (R206, R269). -/
theorem exec_openMessage_of_append {s : State} {ct : List Byte} {tag : Block} (hentry : openEntry s = none)
    (hdata : s.ports.dataIn = ct ++ tag.toList) :
    exec .openMessage s =
      if ctEqual (expectedTag s.params.mulStrategy s.ctx s.ports.nonceIn s.ports.aadIn ct) tag = false then
        raise .authenticationFailure s
      else finish (cipherBlocks s.ctx (makeICB s.ports.nonceIn) ct) s := by
  simp only [exec, execOpenMessage, hentry, hdata, openCiphertext_append, openTag_append, memWrite_nil]

/-- Settles O50: the input passes the entry checks, and its tag is the expected one. -/
theorem openAnswersPlaintextOnMatchingTag : Obligations.OpenAnswersPlaintextOnMatchingTag := by
  unfold Obligations.OpenAnswersPlaintextOnMatchingTag
  intro s ct hvalid hnonce hct haad hdata
  have hexec := exec_openMessage_of_append (openEntry_of_append hvalid hnonce hct haad hdata) hdata
  rw [ctEqual_self, if_neg Bool.true_eq_false.mp] at hexec
  have hanswers := answers_of_exec_eq_finish hexec (by rw [cipherBlocks_length]; omega)
  rwa [cipherBlocks_length] at hanswers

end Sys2Proof.Machine
end

-- Proofs: the comparison of two tags, and the tags that OPEN rejects (spec/45_aead_seal_open.md R206, R209)
section
-- Elaborates the proofs one after another: the check's memory limit counts a stack for each proof in the making.
set_option deprecated.oldSectionVars true
/-! `DIFF` stays zero exactly when no byte differs, so `OPEN` goes on exactly when the two tags are the same. -/

namespace Sys2Proof.Machine

/-- A collected OR is zero exactly when it began at zero and every term is zero. -/
theorem foldl_or_eq_zero_iff {ι : Type} {w : Nat} (f : ι → BitVec w) (is : List ι) (z : BitVec w) :
    is.foldl (fun d i => d ||| f i) z = 0#w ↔ z = 0#w ∧ ∀ i ∈ is, f i = 0#w := by
  induction is generalizing z with
  | nil => simp
  | cons i is ih => rw [List.foldl_cons, ih, BitVec.or_eq_zero_iff, List.forall_mem_cons, and_assoc]

theorem ctEqual_iff (a b : Block) : ctEqual a b = true ↔ a = b := by
  refine ⟨fun h => Vector.ext fun j hj => ?_, fun h => h ▸ ctEqual_self a⟩
  obtain ⟨-, hbytes⟩ := (foldl_or_eq_zero_iff _ _ _).mp (of_decide_eq_true h)
  exact BitVec.xor_eq_zero_iff.mp (hbytes ⟨j, hj⟩ (List.mem_finRange _))

/-- Settles O57: `ctEqual_iff`. -/
theorem ctEqualDecidesEquality : Obligations.CtEqualDecidesEquality := by
  unfold Obligations.CtEqualDecidesEquality
  exact ctEqual_iff

/-- Settles O51: the input passes the entry checks, and the comparison finds the difference. -/
theorem openRejectsAnyOtherTag : Obligations.OpenRejectsAnyOtherTag := by
  unfold Obligations.OpenRejectsAnyOtherTag
  intro s ct tag hvalid hnonce hct haad hdata htag
  have hexec := exec_openMessage_of_append (openEntry_of_append hvalid hnonce hct haad hdata) hdata
  have hdiffer := Bool.eq_false_of_not_eq_true fun heq => htag ((ctEqual_iff _ _).mp heq).symm
  rw [if_pos hdiffer] at hexec
  exact answers_of_exec_eq_raise hexec

end Sys2Proof.Machine
end

-- Proofs: the entry checks of SEAL and OPEN that fail (spec/45_aead_seal_open.md R202, spec/60_exceptions.md R238)
section
-- Elaborates the proofs one after another: the check's memory limit counts a stack for each proof in the making.
set_option deprecated.oldSectionVars true
/-! The failure that each entry check of `SEAL` and `OPEN` gives where the ones before it pass. -/

namespace Sys2Proof.Machine

theorem answers_sealMessage_of_failed_entry {s : State} {f : Failure} (h : sealEntry s = some f) :
    answers .sealMessage s { status := .failed f, outLen := 0, dataOut := [] } :=
  answers_of_exec_eq_raise (by simp only [exec, execSealMessage, h])

theorem answers_openMessage_of_failed_entry {s : State} {f : Failure} (h : openEntry s = some f) :
    answers .openMessage s { status := .failed f, outLen := 0, dataOut := [] } :=
  answers_of_exec_eq_raise (by simp only [exec, execOpenMessage, h])

/-- The length of the ciphertext part; an input shorter than a tag leaves none (R202). -/
theorem openClen_eq_sub (data : List Byte) : openClen data = data.length - 16 := by
  unfold openClen overhead
  split <;> omega

section

variable {s : State} (hvalid : s.ctx.ctxValid = true)
include hvalid

theorem sealEntry_of_wrong_nonce (hnonce : s.ports.nonceIn.length ≠ nonceSize) :
    sealEntry s = some .unsupportedNonceLength := by
  rw [sealEntry, hvalid, if_neg Bool.true_eq_false.mp, if_pos hnonce]

theorem openEntry_of_wrong_nonce (hnonce : s.ports.nonceIn.length ≠ nonceSize) :
    openEntry s = some .unsupportedNonceLength := by
  rw [openEntry, hvalid, if_neg Bool.true_eq_false.mp, if_pos hnonce]

variable (hnonce : s.ports.nonceIn.length = nonceSize)
include hnonce

theorem sealEntry_of_too_large
    (hlarge : maxPtBytes < s.ports.dataIn.length ∨ maxAadBytes < s.ports.aadIn.length) :
    sealEntry s = some .inputTooLarge := by
  rw [sealEntry, hvalid, if_neg Bool.true_eq_false.mp, if_neg (not_not_intro hnonce), if_pos hlarge]

theorem openEntry_of_too_large
    (hlarge : maxPtBytes < openClen s.ports.dataIn ∨ maxAadBytes < s.ports.aadIn.length) :
    openEntry s = some .inputTooLarge := by
  rw [openEntry, hvalid, if_neg Bool.true_eq_false.mp, if_neg (not_not_intro hnonce), if_pos hlarge]

theorem openEntry_of_short (haad : s.ports.aadIn.length ≤ maxAadBytes) (hshort : s.ports.dataIn.length < overhead) :
    openEntry s = some .authenticationFailure := by
  have hempty : openClen s.ports.dataIn = 0 := if_neg (Nat.not_le.mpr hshort)
  have hfits : ¬(maxPtBytes < openClen s.ports.dataIn ∨ maxAadBytes < s.ports.aadIn.length) := by omega
  rw [openEntry, hvalid, if_neg Bool.true_eq_false.mp, if_neg (not_not_intro hnonce), if_neg hfits, if_pos hshort]

end

/-- Settles O48: the flag comes before the nonce, and the nonce before the lengths. -/
theorem sealFailuresInOrder : Obligations.SealFailuresInOrder := by
  unfold Obligations.SealFailuresInOrder
  refine fun s => ⟨fun hclear => ?_, fun hvalid hnonce => ?_, fun hvalid hnonce hlarge => ?_⟩
  · exact answers_noContext_of_not_readyFor (ne_true_of_eq_false hclear) nofun
  · exact answers_sealMessage_of_failed_entry (sealEntry_of_wrong_nonce hvalid hnonce)
  · exact answers_sealMessage_of_failed_entry (sealEntry_of_too_large hvalid hnonce hlarge)

/-- Settles O49: as for `SEAL`, and an input that holds no tag comes last. -/
theorem openFailuresInOrder : Obligations.OpenFailuresInOrder := by
  unfold Obligations.OpenFailuresInOrder
  refine fun s => ⟨fun hclear => ?_, fun hvalid hnonce => ?_, fun hvalid hnonce hlarge => ?_,
    fun hvalid hnonce haad hshort => ?_⟩
  · exact answers_noContext_of_not_readyFor (ne_true_of_eq_false hclear) nofun
  · exact answers_openMessage_of_failed_entry (openEntry_of_wrong_nonce hvalid hnonce)
  · rw [← openClen_eq_sub] at hlarge
    exact answers_openMessage_of_failed_entry (openEntry_of_too_large hvalid hnonce hlarge)
  · exact answers_openMessage_of_failed_entry (openEntry_of_short hvalid hnonce haad hshort)

end Sys2Proof.Machine
end

-- Proofs: what SEAL answered, opened again (spec/45_aead_seal_open.md R210)
section
-- Elaborates the proofs one after another: the check's memory limit counts a stack for each proof in the making.
set_option deprecated.oldSectionVars true
/-! Where `SEAL` succeeds, its answer is a ciphertext and the tag of that ciphertext, and the operands pass the entry
checks of `OPEN`. So the answer itself is opened, and the answer with another tag is rejected. -/

namespace Sys2Proof.Machine

/-- What `SEAL` encrypts to in the state `s`: the first part of its answer (R205). -/
def sealedCiphertext (s : State) : List Byte := cipherBlocks s.ctx (makeICB s.ports.nonceIn) s.ports.dataIn

/-- The tag that `SEAL` answers in the state `s`: the last part of its answer (R205). -/
def sealedTag (s : State) : Block :=
  expectedTag s.params.mulStrategy s.ctx s.ports.nonceIn s.ports.aadIn (sealedCiphertext s)

@[simp] theorem sealedCiphertext_length (s : State) : (sealedCiphertext s).length = s.ports.dataIn.length :=
  cipherBlocks_length _ _ _

/-- A `SEAL` that succeeded passed its entry checks, so the ciphertext and the other operands are within `OPEN`'s bounds
too, and its data is the ciphertext and its tag. -/
theorem sealMessage_inversion {s t : State} {r : Response} (h : exec .sealMessage s = .next t)
    (hr : t.response = some r) (hok : r.status = .ok) :
    s.ctx.ctxValid = true ∧ s.ports.nonceIn.length = nonceSize ∧ (sealedCiphertext s).length ≤ maxPtBytes ∧
      s.ports.aadIn.length ≤ maxAadBytes ∧ r.dataOut = sealedCiphertext s ++ (sealedTag s).toList := by
  cases hentry : sealEntry s with
  | some f =>
    rw [answers_sealMessage_of_failed_entry hentry, Host.Outcome.next.injEq] at h
    subst h
    obtain rfl := Option.some.inj hr
    exact absurd hok nofun
  | none =>
    obtain rfl := finish_eq_next.mp ((exec_sealMessage_of_entry hentry).symm.trans h)
    obtain rfl := Option.some.inj hr
    obtain ⟨hvalid, hnonce, hdata, haad⟩ := sealEntry_eq_none.mp hentry
    exact ⟨hvalid, hnonce, (sealedCiphertext_length s).trans_le hdata, haad, sealOutput_eq_append _ _ _ _ _⟩

/-- Settles O52: the tag is the expected one, and the keystream applied twice gives the plaintext back. -/
theorem openReturnsWhatWasSealed : Obligations.OpenReturnsWhatWasSealed := by
  unfold Obligations.OpenReturnsWhatWasSealed
  intro s t r h hr hok
  obtain ⟨hvalid, hnonce, hct, haad, hout⟩ := sealMessage_inversion h hr hok
  have hanswers := openAnswersPlaintextOnMatchingTag { s with ports := { s.ports with dataIn := r.dataOut } }
    (sealedCiphertext s) hvalid hnonce hct haad hout
  rwa [sealedCiphertext_length, sealedCiphertext, cipherBlocksIsItsOwnInverse] at hanswers

/-- Sixteen bytes more than `ct`, beginning with `ct`, are `ct` and a tag. -/
theorem exists_eq_append_tag {ct bs : List Byte} (hlength : bs.length = ct.length + 16)
    (htake : bs.take ct.length = ct) : ∃ tag : Block, bs = ct ++ tag.toList := by
  have hrest : (bs.drop ct.length).length = 16 := by rw [List.length_drop, hlength, Nat.add_sub_cancel_left]
  refine ⟨blockOfBytes (bs.drop ct.length), ?_⟩
  calc bs
    _ = bs.take ct.length ++ bs.drop ct.length := (List.take_append_drop _ _).symm
    _ = ct ++ (blockOfBytes (bs.drop ct.length)).toList := by rw [htake, blockOfBytes_toList hrest]

/-- Settles O53: the altered answer is the same ciphertext with another tag. -/
theorem openRejectsAlteredTag : Obligations.OpenRejectsAlteredTag := by
  unfold Obligations.OpenRejectsAlteredTag
  intro s t r forged h hr hok hlength htake hne
  obtain ⟨hvalid, hnonce, hct, haad, hout⟩ := sealMessage_inversion h hr hok
  rw [hout, ← sealedCiphertext_length s, List.take_left] at htake
  rw [hout, List.length_append, Vector.length_toList] at hlength
  obtain ⟨tag, rfl⟩ := exists_eq_append_tag hlength htake
  have htag : tag ≠ sealedTag s := fun heq => hne (by rw [hout, heq])
  exact openRejectsAnyOtherTag { s with ports := { s.ports with dataIn := sealedCiphertext s ++ tag.toList } }
    (sealedCiphertext s) tag hvalid hnonce hct haad rfl htag

end Sys2Proof.Machine
end

-- Proofs: GHASH of data with one byte changed (spec/43_ghash.md R181; spec/45_aead_seal_open.md R204, R210)
section
-- Elaborates the proofs one after another: the check's memory limit counts a stack for each proof in the making.
set_option deprecated.oldSectionVars true
/-! Where multiplying by `H` loses nothing, GHASH loses no difference: one block that differs gives another accumulator,
and every later step keeps the accumulators apart. So one changed byte of the ciphertext or the AAD changes the tag. -/

namespace Sys2Proof

/-- A linear function that sends only zero to zero loses nothing. -/
theorem XorLinear.injective {n m : Nat} {f : BitVec n → BitVec m} (hf : XorLinear f)
    (hker : ∀ x, f x = 0#m → x = 0#n) : Function.Injective f := fun _ _ h =>
  BitVec.xor_eq_zero_iff.mp (hker _ (by rw [hf, h, BitVec.xor_self]))

end Sys2Proof

namespace Sys2Proof.Machine

/-! ### Folds of injective steps -/

section

variable {σ ι : Type} {f g : σ → ι → σ} (hinj : ∀ i, Function.Injective fun acc => f acc i)
include hinj

theorem foldl_injective (is : List ι) : Function.Injective fun acc => is.foldl f acc := by
  induction is with
  | nil => exact Function.injective_id
  | cons i is ih => exact ih.comp (hinj i)

/-- Two folds whose steps differ at one place only, where they differ on every accumulator, end differently. -/
theorem foldl_ne_of_step_ne {is : List ι} {i : ι} (hnodup : is.Nodup) (hi : i ∈ is)
    (hother : ∀ acc, ∀ j ≠ i, g acc j = f acc j) (hstep : ∀ acc, g acc i ≠ f acc i) (acc : σ) :
    is.foldl g acc ≠ is.foldl f acc := by
  induction is generalizing acc with
  | nil => exact absurd hi List.not_mem_nil
  | cons j is ih =>
    obtain ⟨hj, hnodup⟩ := List.nodup_cons.mp hnodup
    rw [List.foldl_cons, List.foldl_cons]
    by_cases hji : j = i
    · subst hji
      have hrest : ∀ acc, ∀ k ∈ is, g acc k = f acc k := fun acc k hk => hother acc k (ne_of_mem_of_not_mem hk hj)
      rw [List.foldl_ext _ _ _ hrest]
      exact (foldl_injective hinj is).ne (hstep acc)
    · rw [hother acc j hji]
      exact ih hnodup (List.mem_of_ne_of_mem (Ne.symm hji) hi) _

end

/-! ### Data with one byte changed -/

theorem elementOfBlock_injective : Function.Injective elementOfBlock :=
  Function.LeftInverse.injective blockOfElement_elementOfBlock

theorem blockOfElement_injective : Function.Injective blockOfElement :=
  Function.LeftInverse.injective elementOfBlock_blockOfElement

theorem memReadPad_set_of_ne (d : List Byte) (v : Byte) {i j : Nat} (h : i ≠ j / 16) :
    memReadPad (d.set j v) (16 * i) = memReadPad d (16 * i) :=
  memReadPad_congr fun k hk => by
    rw [List.getD_eq_getElem?_getD, List.getElem?_set_ne (by omega), List.getD_eq_getElem?_getD]

theorem memReadPad_set_ne {d : List Byte} {v : Byte} {j : Nat} (hj : j < d.length) (hv : v ≠ d.getD j 0) :
    memReadPad (d.set j v) (16 * (j / 16)) ≠ memReadPad d (16 * (j / 16)) := by
  intro h
  have hk : j % 16 < 16 := Nat.mod_lt j (by decide)
  have hbyte : (memReadPad (d.set j v) (16 * (j / 16)))[j % 16] = (memReadPad d (16 * (j / 16)))[j % 16] := by rw [h]
  rw [memReadPad_get _ _ _ hk, memReadPad_get _ _ _ hk, Nat.div_add_mod, List.getD_eq_getElem?_getD,
    List.getElem?_set_self hj, Option.getD_some] at hbyte
  exact hv hbyte

section

variable {strategy : MulStrategy} {c : Context} (hmul : Function.Injective (mulH strategy c))
include hmul

theorem ghashStep_injective (d : List Byte) (i : Nat) : Function.Injective fun acc => ghashStep strategy c d acc i :=
  fun _ _ h => (BitVec.xor_left_inj _).mp (hmul h)

/-- GHASH of one sequence of bytes keeps different accumulators apart (R181). -/
theorem ghash_injective (d : List Byte) : Function.Injective (ghash strategy c d) :=
  foldl_injective (ghashStep_injective hmul d) _

/-- GHASH notices one changed byte (R181). -/
theorem ghash_set_ne {d : List Byte} {v : Byte} {j : Nat} (hj : j < d.length) (hv : v ≠ d.getD j 0) (a : GF128) :
    ghash strategy c (d.set j v) a ≠ ghash strategy c d a := by
  have hblock : j / 16 < nblocks d.length := by
    unfold nblocks
    omega
  rw [ghash, ghash, List.length_set]
  refine foldl_ne_of_step_ne (ghashStep_injective hmul d) List.nodup_range (List.mem_range.mpr hblock)
    (fun acc i hi => ?_) (fun acc => ?_) a
  · rw [ghashStep, ghashStep, memReadPad_set_of_ne d v hi]
  · have hxor := (BitVec.xor_right_inj acc).not.mpr (elementOfBlock_injective.ne (memReadPad_set_ne hj hv))
    exact hmul.ne hxor

/-! ### The tag -/

/-- After the ciphertext the tag's GHASH takes only the lengths, which keep different accumulators apart (R204). -/
theorem expectedTag_ne_of_ghash_ne (nonce : List Byte) {aad aad' ct ct' : List Byte}
    (haad : aad'.length = aad.length) (hct : ct'.length = ct.length)
    (hne : ghash strategy c ct' (ghash strategy c aad' 0) ≠ ghash strategy c ct (ghash strategy c aad 0)) :
    expectedTag strategy c nonce aad' ct' ≠ expectedTag strategy c nonce aad ct := by
  rw [expectedTag, expectedTag, computeTag, computeTag, haad, hct]
  exact blockOfElement_injective.ne ((BitVec.xor_left_inj _).not.mpr ((ghash_injective hmul _).ne hne))

theorem expectedTag_set_ct_ne (nonce aad : List Byte) {ct : List Byte} {v : Byte} {j : Nat} (hj : j < ct.length)
    (hv : v ≠ ct.getD j 0) :
    expectedTag strategy c nonce aad (ct.set j v) ≠ expectedTag strategy c nonce aad ct :=
  expectedTag_ne_of_ghash_ne hmul nonce rfl List.length_set (ghash_set_ne hmul hj hv _)

theorem expectedTag_set_aad_ne (nonce : List Byte) {aad : List Byte} (ct : List Byte) {v : Byte} {j : Nat}
    (hj : j < aad.length) (hv : v ≠ aad.getD j 0) :
    expectedTag strategy c nonce (aad.set j v) ct ≠ expectedTag strategy c nonce aad ct :=
  expectedTag_ne_of_ghash_ne hmul nonce List.length_set rfl
    ((ghash_injective hmul ct).ne (ghash_set_ne hmul hj hv 0))

end

/-! ### One flipped bit -/

theorem xor_bit_ne (x : Byte) {b : Nat} (hb : b < 8) : x ^^^ (1#8 <<< b) ≠ x := by
  have hbit : ∀ b < 8, 1#8 <<< b ≠ 0#8 := by decide
  exact fun h => hbit b hb ((BitVec.xor_right_inj x).mp (h.trans BitVec.xor_zero.symm))

theorem flipBit_append {ct : List Byte} {j : Nat} (hj : j < ct.length) (tail : List Byte) (b : Nat) :
    flipBit (ct ++ tail) j b = flipBit ct j b ++ tail := by
  rw [flipBit, List.getD_append _ _ _ _ hj, List.set_append_left _ _ hj, flipBit]

/-- Settles O54: the tag of the flipped ciphertext, or with the flipped AAD, is not the one that was sealed. -/
theorem openRejectsFlippedBit : Obligations.OpenRejectsFlippedBit := by
  unfold Obligations.OpenRejectsFlippedBit
  intro s t r j b hmulH hker h hr hok hb
  obtain ⟨hvalid, hnonce, hct, haad, hout⟩ := sealMessage_inversion h hr hok
  have hmul : Function.Injective (mulH s.params.mulStrategy s.ctx) := by
    rw [funext hmulH]
    exact (multiply_left_xorLinear s.ctx.h).injective hker
  refine ⟨fun hj => ?_, fun hj => ?_⟩
  · rw [← sealedCiphertext_length s] at hj
    rw [hout, flipBit_append hj]
    exact openRejectsAnyOtherTag _ (flipBit (sealedCiphertext s) j b) (sealedTag s) hvalid hnonce
      (List.length_set.trans_le hct) haad rfl (expectedTag_set_ct_ne hmul _ _ hj (xor_bit_ne _ hb)).symm
  · exact openRejectsAnyOtherTag _ (sealedCiphertext s) (sealedTag s) hvalid hnonce hct
      (List.length_set.trans_le haad) hout (expectedTag_set_aad_ne hmul _ _ hj (xor_bit_ne _ hb)).symm

end Sys2Proof.Machine
end

-- Proofs: a command that fails (spec/60_exceptions.md R236, R242)
section
-- Elaborates the proofs one after another: the check's memory limit counts a stack for each proof in the making.
set_option deprecated.oldSectionVars true
/-! A failure can come only from `raise`, which keeps the state but for the response; every other end of a command is a
success, also where it has built a context slot. -/

namespace Sys2Proof.Machine

/-- A command that finishes, in whatever slot it has built, answers no failure (R85). -/
theorem status_eq_ok_of_finish {data : List Byte} {s t : State} {r : Response} (h : finish data s = .next t)
    (hr : t.response = some r) : r.status = .ok := by
  obtain rfl := finish_eq_next.mp h
  obtain rfl := Option.some.inj hr
  exact okResponse_status data

/-- Settles O11: a command that answers a failure has raised it, in the state in which it was issued. -/
theorem failedCommandHasNoEffect : Obligations.FailedCommandHasNoEffect := by
  unfold Obligations.FailedCommandHasNoEffect
  intro i s t r f h hr hfailed
  have not_finish : ∀ data u, exec i s ≠ finish data u := fun data u hexec =>
    nomatch hfailed.symm.trans (status_eq_ok_of_finish (hexec.symm.trans h) hr)
  rcases exec_cases i s with ⟨g, hraise⟩ | ⟨data, hfinish⟩ | ⟨-, -, hexpandKey⟩ | ⟨-, -, hnewAead⟩
  · obtain rfl := raise_eq_next.mp (hraise.symm.trans h)
    obtain rfl := Option.some.inj hr
    obtain rfl : g = f := Status.failed.inj hfailed
    rfl
  · exact absurd hfinish (not_finish _ _)
  · exact absurd hexpandKey (not_finish _ _)
  · exact absurd hnewAead (not_finish _ _)

end Sys2Proof.Machine
end

-- Proofs: the reset move, and what a failed OPEN releases (spec/70_reset_and_hazards.md R260, R269)
section
-- Elaborates the proofs one after another: the check's memory limit counts a stack for each proof in the making.
set_option deprecated.oldSectionVars true
/-! The two rules of this chapter that bound what survives: nothing of the context across a reset, no byte of a message
that did not authenticate. -/

namespace Sys2Proof.Machine

theorem step_of_reset {s : State} {rest : List HostMove} (h : s.host = .reset :: rest) :
    step s = .next (takeReset rest s) := by
  simp only [step, h]

/-- Settles O6: the step is `takeReset`, whose context slot is the one after reset. -/
theorem resetMoveDiscardsContext : Obligations.ResetMoveDiscardsContext := by
  unfold Obligations.ResetMoveDiscardsContext
  intro s rest hhost
  exact ⟨takeReset rest s, step_of_reset hhost, rfl, rfl, takeReset_params rest s, takeReset_ports rest s,
    takeReset_response rest s, takeReset_host rest s⟩

/-- Settles O55: a response that is not `OK` is a failure response, of `OPEN` as of every command. -/
theorem openReleasesNothingOnFailure : Obligations.OpenReleasesNothingOnFailure := by
  unfold Obligations.OpenReleasesNothingOnFailure
  intro s t r h hr hne
  rcases response_cases h hr with ⟨f, rfl⟩ | ⟨data, rfl⟩
  · exact ⟨failedResponse_outLen f, failedResponse_dataOut f⟩
  · exact absurd (okResponse_status data) hne

end Sys2Proof.Machine
end
